-- ==== Sys2Proof/Word.lean ====
section
/-! DEFINITION. The word types of the BX16: the bytes and wider words that cross a pin of the part, and the counts the
manual says wrap at a width. Lengths, positions and times are plain `Nat` and `Int` values, since the manual never reads
them as bits. -/
namespace Sys2Proof

/-- One byte of a frame, a telegram or the configuration record. -/
abbrev Byte := BitVec 8

/-- A 16-bit word: the wrapping 16-bit counts and the two-byte fields. -/
abbrev Word16 := BitVec 16

/-- A 32-bit word: the part totals, the seconds count and the signed encoder count. -/
abbrev Word32 := BitVec 32

/-- A six-bit address of the aisle line (Units section: stations 1 to 62, the shuttle 63, 0 invalid). -/
abbrev LineAddr := BitVec 6

/-- One bit for each of the 21 input lines, bit i being input i in the order of the tables of chapter 9. -/
abbrev InputBits := BitVec 21

end Sys2Proof
end

