-- ==== Sys2Proof/Config.lean ====
section
/-! DEFINITION. What the part fixes (times, capacities) and the one free value of the model. Everything the configuration
record fixes is in `Machine.Cfg`. -/
namespace Sys2Proof.Config

/-- A byte that the manual leaves unstated: of the marks and bit fields of what reads as absent (R223; pages 1, 2 and 4 as the
selectors of STATUS READ), and past the end of a response (R197; page 6) (assumption logs 6 and 8). It is a free value, a
function of page and offset. -/
opaque unstatedByte : Nat → Nat → BitVec 8

/-- R24, R29, R41: the encoder is still when no edge has come for 20 ms. -/
def settleMs : Nat := 20
/-- R32: contact is found after 200 ms without an edge under PUSH_FWD. -/
def contactMs : Nat := 200
/-- R26: the stall time. -/
def stallMs : Nat := 500
/-- R30: the homing limit. -/
def homingLimitMs : Nat := 30000
/-- R34: the loading limit. -/
def loadingLimitMs : Nat := 3000
/-- R43: the remnant limit. -/
def remnantLimitMs : Nat := 2000
/-- R38: the limit of the collet wait in FEEDING. -/
def colletLimitMs : Nat := 2000
/-- R33, R43: the length of an ESCAPE and of an EJECT pulse. -/
def pulseMs : Nat := 300
/-- R115: the pairing windows of the belt pulses. -/
def pairingMs : Nat := 20
/-- R151: what the drop confirmation adds to the gate time. -/
def confirmExtraMs : Nat := 100
/-- R83, R84: the timers of LISTENING and WITHDRAWN. -/
def lineTimerMs : Nat := 2000
/-- R102: the dispatch timer. -/
def dispatchTimerMs : Nat := 2000
/-- R107, R109: the delivery window and the early-edge window. -/
def deliveryMs : Nat := 5000
/-- R192: the signal block reports at the latest 15 ms after the filters restart. -/
def settlingMs : Nat := 15
/-- R214: the straps must agree within 100 ms. -/
def strapsMs : Nat := 100
/-- R215: the wait between two read attempts. -/
def retryMs : Nat := 10
/-- R218: the time a page has to be acknowledged. -/
def pageMs : Nat := 20
/-- R111: the stock-out hold, in seconds. -/
def stockOutHoldS : Nat := 60
/-- R52: the cut clock stops at this count of TU. -/
def cutClockTop : Nat := 1048575
/-- R111, R93, R63: a one-second timer in milliseconds. -/
def oneSecondMs : Nat := 1000
/-- R3: rack list and en-route records together. -/
def rackCapacity : Nat := 3
/-- R136, R138: part records of the hold queue. -/
def holdCapacity : Nat := 6
/-- R142: entries of the claim table. -/
def claimCapacity : Nat := 4
/-- R86: entries of the transmit queue. -/
def queueCapacity : Nat := 8
/-- R95: records of the peer table. -/
def peerCapacity : Nat := 31
/-- R79, R80: failed attempts of one telegram, and own objections in a row. -/
def attemptLimit : Nat := 8
/-- R84: consecutive discards before WITHDRAWN. -/
def discardLimit : Nat := 4

end Sys2Proof.Config
end

