-- ==== Sys2Proof/Syntax.lean ====
section
/-! DEFINITION. The commands of the BX16, one constructor for each row of spec/opcode_table.json, with the values each
carries. A command of the machine port carries its payload bytes as clocked (R197); the setup key it may need, and the levels
an edge captures, are the accepted levels the station holds (R182, R200). A telegram heard on the line carries its sender
and the fields of its payload (R222). An edge of a line of the loader carries the accepted level where both levels are
events (R176, R178). -/
namespace Sys2Proof

/-- R76: the four conditions that make a frame unreadable for a receiver. -/
inductive FrameFlaw where
  | stuffViolation | badLength | checkMismatch | dominantEnd
deriving DecidableEq, Repr

/-- One constructor per row of spec/opcode_table.json, in the table's order. -/
inductive Instr where
  -- start-up (chapter 11)
  | powerOnReset
  | addressStrapsRead (addr : LineAddr)
  | strapsTimeout
  | configReadDone (record : List Byte)
  | configReadFail
  | configRetryWaitEnd
  /-- The report of R192 that every input is settled, with the settled levels. -/
  | join (levels : InputBits)
  /-- The report of R192 after 15 ms: which inputs are settled, and their levels. -/
  | settleTimeout (settled levels : InputBits)
  -- machine port (chapter 10)
  /-- A malformed frame of this many byte times, a last incomplete one counted. -/
  | malformedFrame (bytes : Nat)
  /-- A READ RESPONSE frame of this many byte times, a last incomplete one counted. -/
  | readResponse (bytes : Nat)
  | jobSet (payload : List Byte)
  | jobRead (payload : List Byte)
  | lotSet (payload : List Byte)
  | statusRead (payload : List Byte)
  | faultRead (payload : List Byte)
  | countsRead (payload : List Byte)
  | flagsSet (payload : List Byte)
  | flagsClear (payload : List Byte)
  | flagsFlip (payload : List Byte)
  | eventClaim (payload : List Byte)
  | eventComplete (payload : List Byte)
  | eventPrioritySet (payload : List Byte)
  | eventThresholdSet (payload : List Byte)
  | resume (payload : List Byte)
  | faultClear (payload : List Byte)
  | watchSet (payload : List Byte)
  | watchOff (payload : List Byte)
  | remnantTrayEmptied (payload : List Byte)
  | rejectBinEmptied (payload : List Byte)
  | restart (payload : List Byte)
  | configLoad (payload : List Byte)
  -- configuration memory (R218)
  | configPageWritten
  | configPageTimeout
  | configReadbackDone (record : List Byte)
  -- feed sequencer (chapter 2)
  | feedReqRaised
  | feedReqDropped
  | feedServe
  | cutDoneEdge
  | colletOpenAsserted
  | colletOpenDropped
  /-- A change of the accepted encoder pair, to these levels (R185). -/
  | encoderEdge (a b : Bool)
  | moveSettled
  | pusherStall
  | contactFound
  | homeSwEdge (level : Bool)
  | homingLimit
  | fwdLimitActive (level : Bool)
  | guardOpen (level : Bool)
  | rackLoad
  | escapePulseEnd
  | channelChange (level : Bool)
  | loadingLimit
  | spindleEntryEdge (level : Bool)
  | barEndRetract
  | ejectPulseEnd
  | remnantEdge
  | remnantLimit
  | colletLimit
  | rackEntryEdge
  -- belt and unload (chapters 6 and 7)
  | indexEdge
  | homeEdge
  | advanceWindowEnd
  | homeHoldWindowEnd
  | trayBottomChange (level : Bool)
  | foundPartRecord
  | trayEntryEdge
  | binEntryEdge
  | catchWindowEnd
  | gateTimeEnd
  | dropSenseEdge
  | dropConfirmationTimeout
  -- aisle line (chapter 4)
  | transmitStart
  | arbitrationLost
  | attemptFailed
  /-- A frame of this class found unreadable; `fromWithdrawn` says that its start bit fell in WITHDRAWN (R76). -/
  | unreadableFrame (cls : BitVec 3) (flaw : FrameFlaw) (fromWithdrawn : Bool)
  | listeningTimerEnd
  | withdrawnTimerEnd
  -- telegrams of peers and of the shuttle (chapters 5 to 7)
  | claim (sender : LineAddr) (pocket : Byte)
  | drop (sender : LineAddr) (pocket mark : Byte) (seq : Word16)
  | release (sender : LineAddr) (pocket : Byte)
  | dispatch (sender : LineAddr) (band barType : Byte) (trip : Word16)
  /-- The need fields are read only when bit 7 of the status byte is set (R222). -/
  | presence (sender : LineAddr) (summary ds n status band barType : Byte) (trip : Word16)
  | shuttleIdle
  | shuttleBusy (station barType : Byte) (remaining : Word16)
  | shuttleDelivered (station barType : Byte)
  | shuttleFault (kind station : Byte)
  -- own telegrams completed on the line
  | ownClaimCompleted
  | ownDropCompleted
  | ownReleaseCompleted
  | ownDispatchCompleted
  | ownPresenceCompleted
  -- timers of the peer block and of the forecast
  | dispatchTimerExpiry
  | deliveryWindowEnd
  | earlyEdgeWindowEnd
  | psrOneSecondTimer
  | peerRecordExpiry (addr : LineAddr)
  | stockOutHoldEnd (barType : Byte)
  | sfcOneSecondTimer
  -- the rest of the port and of the line
  | unknownCommand (code : Byte) (payload : List Byte)
  | responsePlaced
  | goodFrameNoOwner (cls : BitVec 3) (sender : LineAddr) (payload : List Byte)
  | recessiveBitsSeen
deriving DecidableEq, Repr

end Sys2Proof
end

