-- ==== Sys2Proof/Machine/State.lean ====
section
/-! DEFINITION. The state of one BX16 station as plain data, block by block as section 2 of the scope file owns it, the
two closed reason types, and the state after power-on or reset pin. INVENTORY.md lists every field with its rule. -/
namespace Sys2Proof.Machine

/-! ## Names of lines -/

/-- The 21 inputs in the order of the tables of chapter 9 (R177, R178). -/
inductive Input where
  | feedReq | cutDone | colletOpen | outcomeA | outcomeB | setupKey
  | homeSw | fwdLimit | guard
  | channel | spindleEntry | rackEntry | remnant
  | trayBottom | trayEntry | binEntry | dropSense
  | index | home | encA | encB
deriving DecidableEq, Repr

/-- The 13 outputs in the order of the table of R187. -/
inductive Output where
  | pushFwd | pushRev | pushFast | colletIlk | escape | eject
  | feedDone | barOut | lotEnd | divert | gate | machineHold | attn
deriving DecidableEq, Repr

/-- The place of an input in the tables of chapter 9, from 0. -/
def Input.idx : Input → Fin 21
  | .feedReq => 0 | .cutDone => 1 | .colletOpen => 2 | .outcomeA => 3 | .outcomeB => 4 | .setupKey => 5
  | .homeSw => 6 | .fwdLimit => 7 | .guard => 8
  | .channel => 9 | .spindleEntry => 10 | .rackEntry => 11 | .remnant => 12
  | .trayBottom => 13 | .trayEntry => 14 | .binEntry => 15 | .dropSense => 16
  | .index => 17 | .home => 18 | .encA => 19 | .encB => 20

/-- The place of an output in the table of R187, from 0. -/
def Output.idx : Output → Fin 13
  | .pushFwd => 0 | .pushRev => 1 | .pushFast => 2 | .colletIlk => 3 | .escape => 4 | .eject => 5
  | .feedDone => 6 | .barOut => 7 | .lotEnd => 8 | .divert => 9 | .gate => 10 | .machineHold => 11 | .attn => 12

/-- Every input, in table order. -/
def Input.all : List Input :=
  [.feedReq, .cutDone, .colletOpen, .outcomeA, .outcomeB, .setupKey, .homeSw, .fwdLimit, .guard, .channel,
   .spindleEntry, .rackEntry, .remnant, .trayBottom, .trayEntry, .binEntry, .dropSense, .index, .home, .encA, .encB]

/-- Every output, in table order. -/
def Output.all : List Output :=
  [.pushFwd, .pushRev, .pushFast, .colletIlk, .escape, .eject, .feedDone, .barOut, .lotEnd, .divert, .gate,
   .machineHold, .attn]

/-- R187: what a pin shows. -/
inductive PinLevel where
  | low | high | highZ
deriving DecidableEq, Repr

/-- R188: the safe-state selection of an output. -/
inductive SafeSel where
  | hold | off | on | float
deriving DecidableEq, Repr

/-! ## The configuration working copy (R216, section 12.4) -/

/-- R17: the stock state of a bar type. -/
inductive Stock where
  | stocked | barred
deriving DecidableEq, Repr

/-- The configured part of a bar type entry (R17). -/
structure BarTypeCfg where
  nominal : Nat
  stock   : Stock
  locked  : Bool
deriving DecidableEq, Repr

/-- The configuration working copy of R216. Bit fields keep the record's order, the first entry in the most significant
bit (section 12.4). -/
structure Cfg where
  bitRate    : Nat
  pockets    : Nat
  dropDist   : Nat
  lmin       : Nat
  lmax       : Nat
  spacing    : Nat
  horizon    : Nat
  trayCap    : Nat
  binCap     : Nat
  filterK    : Vector Nat 4
  trip       : Nat
  tc         : Nat
  runOn      : Nat
  slowZone   : Nat
  edges      : Nat
  tol        : Nat
  catchMs    : Nat
  gateMs     : Nat
  xEntry     : Nat
  xFace      : Nat
  pMax       : Nat
  inPol      : BitVec 24
  outPol     : BitVec 16
  safeSel    : Vector SafeSel 11
  priorities : Vector Nat 16
  threshold  : Nat
  barTypes   : Vector BarTypeCfg 15
deriving DecidableEq, Repr

/-- What the blocks read while the working copy is empty: the unconfigured filter settings of R192 (K = 4, normal
polarity), priorities and threshold 0 (R212), no belt and no bar type. No block in service reads any other field of it. -/
def Cfg.unconfigured : Cfg where
  bitRate := 0
  pockets := 0
  dropDist := 0
  lmin := 0
  lmax := 0
  spacing := 0
  horizon := 0
  trayCap := 0
  binCap := 0
  filterK := Vector.replicate 4 4
  trip := 0
  tc := 0
  runOn := 0
  slowZone := 0
  edges := 0
  tol := 0
  catchMs := 0
  gateMs := 0
  xEntry := 0
  xFace := 0
  pMax := 0
  inPol := 0
  outPol := 0
  safeSel := Vector.replicate 11 .off
  priorities := Vector.replicate 16 0
  threshold := 0
  barTypes := Vector.replicate 15 { nominal := 0, stock := .barred, locked := false }

/-! ## Signal block (chapter 9) -/

/-- R176: the filter of one input: the accepted level, if any yet (R192), and the run count. -/
structure Filter where
  acc : Option Bool
  run : Nat
deriving DecidableEq, Repr

/-- The level of every input pin at one sample instant (R176), and of the six strap pins (R214). -/
structure PinSample where
  pins   : InputBits
  straps : LineAddr
deriving DecidableEq, Repr

/-- What the world brings at one sample instant: the pins, whether CS_N is low (R197), and the levels that the other parties
drive on the aisle line in the bit times that follow, up to the next sample instant (R67; `true` is recessive). -/
structure Sample where
  pins  : PinSample
  csLow : Bool
  line  : List Bool
deriving DecidableEq, Repr

/-- What SIG owns. -/
structure Sig where
  filters   : Vector Filter 21
  /-- The pins as last sampled. -/
  pins      : PinSample
  /-- R179 to R182: the CUT_DONE latch with its OUTCOME capture. -/
  cutLatch  : Option (Bool × Bool)
  /-- R183: the SPINDLE_ENTRY latch with the captured encoder count. -/
  spindleLatch : Option Word32
  remnantLatch : Bool
  rackLatch  : Bool
  trayLatch  : Bool
  binLatch   : Bool
  dropLatch  : Bool
  indexLatch : Bool
  homeLatch  : Bool
  /-- R185: the accepted encoder pair, none before both phases have a level. -/
  phase     : Option (Bool × Bool)
  skips     : Word16
  /-- R186: the home zero is armed. -/
  zeroArmed : Bool
  /-- R186: the home zero was armed at the sample whose rising edge of HOME_SW is waiting to be taken. -/
  zeroDue   : Bool
  /-- R187 to R191: the pin state of every output as it was driven at the last sample instant, in the table's order. -/
  outPins   : Vector PinLevel 13
  /-- R192: milliseconds until SIG reports with inputs unsettled. -/
  settling  : Option Nat
deriving DecidableEq, Repr

/-! ## Bar account (chapter 1) -/

/-- R2: the origin of a bar. -/
inductive Origin where
  | shuttle | manual | found
deriving DecidableEq, Repr

/-- R2: one bar record. -/
structure BarRec where
  barType   : Option Nat
  origin    : Origin
  length    : Option Nat
  verified  : Bool
  wrongType : Bool
deriving DecidableEq, Repr

/-- R17: the learned part of a bar type entry, and its stock-out hold timer in seconds. -/
structure Learned where
  la4   : Nat
  count : Nat
  hold  : Nat
deriving DecidableEq, Repr

/-- What BAC owns. C, Lr and Np are computed from the job, the configuration and P_cut (R1, R9). -/
structure Bac where
  current : Option BarRec
  rack    : List BarRec
  enRoute : Option BarRec
  tray    : Nat
  bin     : Nat
  learned : Vector Learned 15
deriving DecidableEq, Repr

/-! ## Feed sequencer (chapter 2) -/

/-- Section 2.1: the feed engine states. -/
inductive FeedState where
  | homing | noJob | remeasure | noBar | loading | measuring | positioning | ready | feeding | cutting
  | barEnd | ejecting | lotDone
deriving DecidableEq, Repr

/-- R24: the direction of a move. -/
inductive Dir where
  | fwd | rev
deriving DecidableEq, Repr

/-- Which part of its state's step a move is. `main` is the only part in most states; HOMING begins with `start`, drives
`offSwitch` forward and `main` in reverse (R29); RETRY in REMEASURE and MEASURING begins with `homeward` (R47). -/
inductive Leg where
  | start | offSwitch | homeward | main
deriving DecidableEq, Repr

/-- R24, R25, R28: waiting for COLLET_OPEN, driving, past its stop point and waiting to settle, or interrupted. -/
inductive MovePhase where
  | waiting | driving | coasting | interrupted
deriving DecidableEq, Repr

/-- R24: the one move of the pusher. `halted` says that a switch, a sensor or a contact, and not the stop point, has taken
the drive off for good. -/
structure Move where
  leg    : Leg
  dir    : Dir
  target : Option Int
  phase  : MovePhase
  fast   : Bool
  halted : Bool
deriving DecidableEq, Repr

/-- What FSQ owns. The FAULT cause of the pause mark is the presence of a paused kind in the fault unit (R165). -/
structure Fsq where
  st         : FeedState
  /-- The step of the present state has begun (R28: a state entered while paused begins its step when the pause ends). -/
  begun      : Bool
  /-- A RETRY accepted while a WATCH cause remained is still to be carried out (R47). -/
  retry      : Bool
  pauseWatch : Bool
  /-- R23: the encoder count e. -/
  e          : Word32
  /-- R23: P is present. -/
  pKnown     : Bool
  pCut       : Option Int
  target     : Option Int
  /-- R35: P_trip, from the edge to the settle. -/
  trip       : Option Int
  move       : Option Move
  /-- The running limit of the present state: homing, loading, remnant or collet limit (R28), in milliseconds left. -/
  limit      : Option Nat
  /-- R33: milliseconds left of the ESCAPE pulse. -/
  escape     : Option Nat
  /-- R43: milliseconds left of the EJECT pulse. -/
  eject      : Option Nat
  /-- Milliseconds since the last encoder edge, stopping at the stall time. -/
  still      : Nat
  /-- Milliseconds without an edge since the drive outputs were last applied (R26, R32), stopping at the stall time. -/
  quiet      : Nat
  watchPos   : Option Int
  watchArmed : Bool
  watchHit   : Bool
  watchFwd   : Bool
  /-- R37: the pending feed request. -/
  request    : Bool
  feedDone   : Bool
  barOut     : Bool
  /-- R41: no cut has been accounted since READY was reached from POSITIONING or REMEASURE. -/
  firstCut   : Bool
  /-- R41: a pulse consumed in CUTTING that waits for the encoder to be still, with its capture. -/
  cutWait    : Option (Bool × Bool)
deriving DecidableEq, Repr

/-! ## Stock forecast (chapter 3) -/

/-- The forecast values of R56 to R60, as the last recomputation left them. -/
structure Forecast where
  k        : Nat
  stock    : Nat
  rest     : Nat
  usable   : Nat
  starveS  : Nat
  baseSlack : Int
  baseBand : Nat
  qAhead   : Nat
  escSlack : Int
  escBand  : Nat
deriving DecidableEq, Repr

/-- R62: the need record. -/
structure Need where
  active   : Bool
  baseBand : Option Nat
  escBand  : Option Nat
  barType  : Option Nat
  trip     : Option Nat
deriving DecidableEq, Repr

/-- What SFC owns. -/
structure Sfc where
  ta8      : Nat
  /-- R52: the cut clock in whole TU, with the milliseconds of the running TU in `cutSub`. -/
  cutClock : Option Nat
  cutSub   : Nat
  unused   : Bool
  values   : Option Forecast
  need     : Need
  starve   : Bool
  /-- Milliseconds left of the one-second timer. -/
  second   : Option Nat
deriving DecidableEq, Repr

/-! ## Aisle line controller (chapter 4) -/

/-- Section 4.7: the line states. -/
inductive LineState where
  | off | listening | active | withdrawn | quiet
deriving DecidableEq, Repr

/-- R125: the part mark of a DROP. -/
inductive Mark where
  | good | sample | unverified
deriving DecidableEq, Repr

/-- R86: the telegrams the station sends. -/
inductive TxKind where
  | drop (pocket : Nat) (mark : Mark) (seq : Word16)
  | release (pocket : Nat)
  | claim (pocket : Nat)
  | dispatch
  | presence
deriving DecidableEq, Repr

/-- R86: one entry of the transmit queue. `leaving` is R89's removal asked for while the entry is in flight. -/
structure TxEntry where
  kind     : TxKind
  value    : Nat
  payload  : List Byte
  fails    : Nat
  again    : Bool
  inFlight : Bool
  leaving  : Bool
deriving DecidableEq, Repr

/-- R72, R75, R76, R85, R90: how the station reads a frame. -/
inductive Hearing where
  /-- Like any receiver. -/
  | plain
  /-- Its start bit fell in WITHDRAWN: no objection is made to it. -/
  | withdrawn
  /-- An own frame it has stopped sending, which it neither objects to nor takes as unreadable. -/
  | abandoned
  /-- Such a frame, cut off in its arbitration, where no bit of a rival has been read since. -/
  | cutOff
deriving DecidableEq, Repr

/-- R72, R76, R77: what the receiver makes of the line. -/
inductive Rx where
  /-- Between frames; `seen` says that a recessive bit has come since the last window or the last dominant bit. -/
  | free (seen : Bool)
  /-- In a frame: its bits read so far, start bit first, and how it is read. -/
  | reading (bits : List Bool) (how : Hearing)
  /-- A frame with a condition found, read in this way, whose end and window still have this many bits to pass. -/
  | passing (left : Nat) (how : Hearing)
deriving DecidableEq, Repr

/-- The two ends of the aisle line: the bits still to be driven on ALN_TX, the next one first (R67; `true` is recessive, and
none left is recessive), the recessive bits counted of the idle gap, up to 10 (R72), and the receiver. -/
structure LineUnit where
  tx  : List Bool
  gap : Nat
  rx  : Rx
deriving DecidableEq, Repr

/-- What ALC owns. -/
structure Alc where
  st          : LineState
  timer       : Option Nat
  queue       : List TxEntry
  consecutive : Nat
  ownObj      : Nat
  mute        : Bool
  doubt       : Bool
  failed      : Word16
  discards    : Word16
  objections  : Word16
  /-- R72: no start bit is taken until 10 recessive bits have been seen. -/
  waitGap     : Bool
  unit        : LineUnit
deriving DecidableEq, Repr

/-! ## Peers and shuttle rounds (chapter 5) -/

/-- R94: the state summary, in the order of its codes. -/
inductive Summary where
  | safe | alert | noJob | lotDone | hold | run
deriving DecidableEq, Repr

/-- R95: a peer's advertised need. -/
structure PeerNeed where
  band    : Nat
  barType : Nat
  trip    : Nat
deriving DecidableEq, Repr

/-- Section 5.2: one record of the peer table. -/
structure Peer where
  addr    : Nat
  age     : Nat
  ds      : Nat
  n       : Nat
  fill    : Nat
  pressed : Bool
  summary : Summary
  need    : Option PeerNeed
deriving DecidableEq, Repr

/-- Section 5.3: the fault kinds of the shuttle. -/
inductive ShuttleFaultKind where
  | laneEmpty | stopped
deriving DecidableEq, Repr

/-- Section 5.3: the shuttle state with the fields each carries. -/
inductive ShuttleState where
  | absent
  | idle
  | busy (station barType remaining : Nat)
  | fault (kind : ShuttleFaultKind) (station : Nat)
deriving DecidableEq, Repr

/-- Section 5.4: the dispatch states. -/
inductive DispatchState where
  | none | waiting | queued | sent | enRoute
deriving DecidableEq, Repr

/-- What PSR owns. -/
structure Psr where
  peers     : List Peer
  overflow  : Bool
  shuttle   : ShuttleState
  shuttleAge : Nat
  dispatch  : DispatchState
  dispTimer : Option Nat
  misses    : Nat
  /-- R107: the delivered type and the milliseconds left of the delivery window. -/
  delivery  : Option (Nat × Nat)
  /-- R109: milliseconds left of the early-edge window, present while an early edge is held. -/
  earlyEdge : Option Nat
  second    : Option Nat
  /-- R94: the state summary last formed. -/
  summary   : Summary
deriving DecidableEq, Repr

/-! ## Belt tracker (chapter 6) -/

/-- Section 6.5: one entry of the pocket map. -/
inductive Entry where
  | unknown
  | free
  | claimed (owner : Nat)
  | loaded (owner : Nat) (mark : Mark) (seq : Word16)
deriving DecidableEq, Repr

/-- Section 6.4: the sync state with B and the fill count where each is present. -/
inductive Sync where
  | unsynced
  | filling (b fill : Nat)
  | synced (b : Nat)
deriving DecidableEq, Repr

/-- R115: the open advance window: the milliseconds left, whether a HOME has been paired, and whether its advance set B
to 0 (R121). -/
structure AdvWindow where
  left   : Nat
  paired : Bool
  wrapped : Bool
deriving DecidableEq, Repr

/-- What BLT owns. -/
structure Blt where
  sync     : Sync
  map      : List Entry
  misses   : Nat
  mismatch : Bool
  advance  : Option AdvWindow
  /-- R115: milliseconds left of the hold window of a held HOME. -/
  homeHeld : Option Nat
deriving DecidableEq, Repr

/-! ## Unload sequencer (chapter 7) -/

/-- R134: the routed outcome. -/
inductive Routed where
  | good | sample | reject
deriving DecidableEq, Repr

/-- R136: the outcome of a part record. -/
inductive Outcome where
  | good | sample | unknown
deriving DecidableEq, Repr

/-- R136: one part record. -/
structure PartRec where
  seq     : Word16
  lot     : Option Word16
  outcome : Outcome
  stamp   : Word32
  origin  : Option Origin
  dropped : Bool
deriving DecidableEq, Repr

/-- R134 to R136: what a routed cut leaves for the catch: the outcome, and the lot number, bar origin and time of the cut. -/
structure Route where
  outcome : Routed
  lot     : Word16
  origin  : Option Origin
  stamp   : Word32
deriving DecidableEq, Repr

/-- Section 7.4: the states of an active claim. -/
inductive ClaimStage where
  | queued | held | armed
deriving DecidableEq, Repr

/-- R141: a claim in QUEUED, HELD or ARMED. -/
structure ActiveClaim where
  pocket : Nat
  stage  : ClaimStage
deriving DecidableEq, Repr

/-- R141: a DROPPING claim, or a CLOSING claim with what it awaits. -/
inductive CloseStage where
  | dropping | awaitConfirm | awaitDrop | awaitRelease | awaitClaim
deriving DecidableEq, Repr

/-- R141: a claim in DROPPING or CLOSING, with the sequence number of the record it is bound to. -/
structure ClosingClaim where
  pocket : Nat
  stage  : CloseStage
  bound  : Option Word16
deriving DecidableEq, Repr

/-- What UNS owns. The pause mark is the presence of a paused kind in the fault unit (R165). -/
structure Uns where
  hold     : List PartRec
  closing  : List ClosingClaim
  active   : List ActiveClaim
  /-- R150: milliseconds left of the gate time; GATE is driven while present. -/
  gate     : Option Nat
  /-- R151: milliseconds left of the running drop confirmation. -/
  confirm  : Option Nat
  /-- R134: milliseconds left of the catch window, with the routed cut. -/
  catching : Option (Route × Nat)
  divert   : Bool
  yield    : Nat
  seq      : Word16
  seconds  : Word32
  secSub   : Nat
  caught   : Word32
  binned   : Word32
  dropped  : Word32
deriving DecidableEq, Repr

/-! ## Fault unit (chapter 8) -/

/-- R159: the fault kinds, in the order of the kind table. -/
inductive FaultKind where
  | pusherStall | colletNotOpen | colletClosedInMotion | feedDeviation | barNotSeen | wrongBar | measureFail
  | dropUnconfirmed
  | gripShort | overtravel | homeFail | guardOpen
  | partMissing | shortBar | barLengthOdd | unexpectedCut
  | dispatchMiss | shuttleSilent | deliveryMissing | stockOut | rackOverfill
  | lineDiscard | lineWithdrawn | addressClash
  | beltSyncLost | beltSizeMismatch
  | claimConflict
deriving DecidableEq, Repr

/-- Section 8.2: the fault level. -/
inductive Level where
  | normal | alert | safe
deriving DecidableEq, Repr

/-- R163: the engine of a capture. -/
inductive Engine where
  | feed | unload | station
deriving DecidableEq, Repr

/-- R151: the drop outcome of a confirmation that was not seen. -/
inductive DropOutcome where
  | partInTray | trayEmpty
deriving DecidableEq, Repr

/-- R163: the engine state of a capture. -/
inductive CapturedState where
  | feed (st : FeedState)
  | drop (o : DropOutcome)
deriving DecidableEq, Repr

/-- R163: a written capture. -/
structure Capture where
  kind   : FaultKind
  engine : Engine
  state  : CapturedState
  ctx    : Option Nat
  /-- Safe capture only. -/
  fromLevel : Option Level
  active : Bool
deriving DecidableEq, Repr

/-- What FLT owns. The further set has kind k in bit k − 1 (section 12.3). -/
structure Flt where
  level        : Level
  alert        : Option Capture
  safe         : Option Capture
  further      : Nat
  furtherSet   : BitVec 12
  feedPaused   : Option (FaultKind × FeedState)
  unloadPaused : Option (FaultKind × DropOutcome)
  last         : Option (FaultKind × Option Nat)
  notices      : Word16
deriving DecidableEq, Repr

/-! ## Machine port (chapter 10) -/

/-- Section 10.3: the job record. Q is held as received, 0 standing for 65,536. -/
structure Job where
  lp      : Nat
  wc      : Nat
  af      : Nat
  lg      : Nat
  lt      : Nat
  barType : Nat
  tn      : Nat
  q       : Nat
deriving DecidableEq, Repr

/-- Section 10.7: the sixteen event sources, in the order of their IDs. -/
inductive EventSrc where
  | safeEntered | alertEntered | starveExpected | barOut | lotDone | barEnd | barLoaded | stockOut
  | remnantTrayFull | rejectBinFull | holdFull | watchHit | lineNotice | shuttleNotice | partMissing | beltSynced
deriving DecidableEq, Repr

/-- Section 10.7: one event source. -/
structure Source where
  priority  : Nat
  pending   : Bool
  inService : Bool
deriving DecidableEq, Repr

/-- Section 12.2: the response statuses, in the order of their codes. -/
inductive Status where
  | done | notReady | busy | setup | range | type | state | unconfigured | unknown
deriving DecidableEq, Repr

/-- R198: a status with its data. -/
structure Response where
  status : Status
  data   : List Byte
deriving DecidableEq, Repr

/-- R198: the response buffer. PENDING holds the response to be placed, or none while CONFIG LOAD is being written. -/
inductive Buffer where
  | empty
  | pending (r : Option Response)
  | ready (r : Response)
deriving DecidableEq, Repr

/-- What MPT owns. The flags are HOLD_CLAIMS, HOLD_DISPATCH, HOLD_LOADING, REJECT_ALL and SAMPLE_NEXT from bit 0
(section 12.2). -/
structure Mpt where
  job       : Option Job
  lotCount  : Nat
  lotNo     : Word16
  flags     : BitVec 5
  sources   : Vector Source 16
  threshold : Nat
  buffer    : Buffer
  /-- R197: the port byte formed at the falling edge of CS_N, while a frame goes on. -/
  selected  : Option Byte
  /-- What MISO carried in the last frame (R197). -/
  miso      : List Byte
deriving DecidableEq, Repr

/-! ## Start-up unit (chapter 11) -/

/-- Section 11.1: the start phases. -/
inductive Phase where
  | straps | reading | settling | running | unconfigured
deriving DecidableEq, Repr

/-- R217: the unconfigured reasons. -/
inductive Reason where
  | straps | address | memory | sum
deriving DecidableEq, Repr

/-- R218: a CONFIG LOAD being written: the given record, the pages written, and the milliseconds left of the running page
(none during the read-back). -/
structure Loading where
  record : List Byte
  pages  : Nat
  timer  : Option Nat
deriving DecidableEq, Repr

/-- What STU owns, with the counts of the STRAPS and READING phases. -/
structure Stu where
  phase    : Phase
  addrRead : Option LineAddr
  cfg      : Option Cfg
  clamped  : Bool
  reason   : Option Reason
  strapMs  : Nat
  strapLast : Option LineAddr
  strapRun : Nat
  attempts : Nat
  retry    : Option Nat
  load     : Option Loading
deriving DecidableEq, Repr

/-! ## The state -/

/-- One BX16 station. `pending` is the queue of commands waiting, first in, first out; `samples` is what the sample instants
to come bring and `bits` what the other parties drive on the aisle line in the bit times before the next of them, each taken
one at a time by the idle step (assumption logs 1 and 30). -/
structure State where
  sig : Sig
  bac : Bac
  fsq : Fsq
  sfc : Sfc
  alc : Alc
  psr : Psr
  blt : Blt
  uns : Uns
  flt : Flt
  mpt : Mpt
  stu : Stu
  samples : List Sample
  bits    : List Bool
  pending : List Instr
deriving DecidableEq, Repr

/-- The reasons a step can stop with a fault: none. Every fault of the manual is a next state (chapter 8), and every
command of the table has an effect the manual gives. -/
inductive Fault where
deriving DecidableEq, Repr

/-- The reasons a step can be refused. -/
inductive Refusal where
  /-- Raised by an arm of `exec` whose command has no meaning yet. Safe: the machine stops. No arm raises it now. -/
  | notModelled (mnemonic : String)
deriving DecidableEq, Repr

/-! ## Power-on (R21, R49, R65, R91, R113, R132, R157, R174, R194, R212, R214) -/

/-- R194. -/
def Sig.reset : Sig where
  filters := Vector.replicate 21 { acc := none, run := 0 }
  pins := { pins := 0, straps := 0 }
  cutLatch := none
  spindleLatch := none
  remnantLatch := false
  rackLatch := false
  trayLatch := false
  binLatch := false
  dropLatch := false
  indexLatch := false
  homeLatch := false
  phase := none
  skips := 0
  zeroArmed := false
  zeroDue := false
  outPins := Vector.replicate 13 .highZ
  settling := none

/-- R21. -/
def Bac.reset : Bac where
  current := none
  rack := []
  enRoute := none
  tray := 0
  bin := 0
  learned := Vector.replicate 15 { la4 := 0, count := 0, hold := 0 }

/-- R49. The engine is idle until the join, which enters HOMING. -/
def Fsq.reset : Fsq where
  st := .homing
  begun := false
  retry := false
  pauseWatch := false
  e := 0
  pKnown := false
  pCut := none
  target := none
  trip := none
  move := none
  limit := none
  escape := none
  eject := none
  still := 0
  quiet := 0
  watchPos := none
  watchArmed := false
  watchHit := false
  watchFwd := false
  request := false
  feedDone := false
  barOut := false
  firstCut := false
  cutWait := none

/-- R65. -/
def Sfc.reset : Sfc where
  ta8 := 0
  cutClock := none
  cutSub := 0
  unused := true
  values := none
  need := { active := false, baseBand := none, escBand := none, barType := none, trip := none }
  starve := false
  second := none

/-- R72, R82: nothing to drive, and the gap and the start bit still to be waited for. -/
def LineUnit.quiet : LineUnit where
  tx := []
  gap := 0
  rx := .free false

/-- R91. -/
def Alc.reset : Alc where
  st := .off
  timer := none
  queue := []
  consecutive := 0
  ownObj := 0
  mute := false
  doubt := false
  failed := 0
  discards := 0
  objections := 0
  waitGap := false
  unit := LineUnit.quiet

/-- R113. -/
def Psr.reset : Psr where
  peers := []
  overflow := false
  shuttle := .absent
  shuttleAge := 0
  dispatch := .none
  dispTimer := none
  misses := 0
  delivery := none
  earlyEdge := none
  second := none
  summary := .noJob

/-- R132. The map gets its N entries when the configuration has been read. -/
def Blt.reset : Blt where
  sync := .unsynced
  map := []
  misses := 0
  mismatch := false
  advance := none
  homeHeld := none

/-- R157. -/
def Uns.reset : Uns where
  hold := []
  closing := []
  active := []
  gate := none
  confirm := none
  catching := none
  divert := false
  yield := 0
  seq := 0
  seconds := 0
  secSub := 0
  caught := 0
  binned := 0
  dropped := 0

/-- R174. -/
def Flt.reset : Flt where
  level := .normal
  alert := none
  safe := none
  further := 0
  furtherSet := 0
  feedPaused := none
  unloadPaused := none
  last := none
  notices := 0

/-- R212. -/
def Mpt.reset : Mpt where
  job := none
  lotCount := 0
  lotNo := 0
  flags := 0
  sources := Vector.replicate 16 { priority := 0, pending := false, inService := false }
  threshold := 0
  buffer := .empty
  selected := none
  miso := []

/-- R214. -/
def Stu.reset : Stu where
  phase := .straps
  addrRead := none
  cfg := none
  clamped := false
  reason := none
  strapMs := 0
  strapLast := none
  strapRun := 0
  attempts := 0
  retry := none
  load := none

/-- The station right after power-on or reset pin, its queues empty and its pins low (assumption log 2). -/
def State.reset : State where
  sig := Sig.reset
  bac := Bac.reset
  fsq := Fsq.reset
  sfc := Sfc.reset
  alc := Alc.reset
  psr := Psr.reset
  blt := Blt.reset
  uns := Uns.reset
  flt := Flt.reset
  mpt := Mpt.reset
  stu := Stu.reset
  samples := []
  bits := []
  pending := []

end Sys2Proof.Machine
end

