-- ==== Sys2Proof/Machine/Ops.lean ====
section
/-! DEFINITION. The named operations every family shares: one updater per block, the input lines, the event sources, the
notices and step faults of the fault unit, the figures the bar account computes, and the holding of the feed engine. -/
namespace Sys2Proof.Machine

/-! ## One updater per block -/

def State.onSig (s : State) (f : Sig → Sig) : State := { s with sig := f s.sig }
def State.onBac (s : State) (f : Bac → Bac) : State := { s with bac := f s.bac }
def State.onFsq (s : State) (f : Fsq → Fsq) : State := { s with fsq := f s.fsq }
def State.onSfc (s : State) (f : Sfc → Sfc) : State := { s with sfc := f s.sfc }
def State.onAlc (s : State) (f : Alc → Alc) : State := { s with alc := f s.alc }
def State.onPsr (s : State) (f : Psr → Psr) : State := { s with psr := f s.psr }
def State.onBlt (s : State) (f : Blt → Blt) : State := { s with blt := f s.blt }
def State.onUns (s : State) (f : Uns → Uns) : State := { s with uns := f s.uns }
def State.onFlt (s : State) (f : Flt → Flt) : State := { s with flt := f s.flt }
def State.onMpt (s : State) (f : Mpt → Mpt) : State := { s with mpt := f s.mpt }
def State.onStu (s : State) (f : Stu → Stu) : State := { s with stu := f s.stu }

/-- `f` when the condition holds, otherwise the state as it is. -/
def State.onlyIf (s : State) (c : Bool) (f : State → State) : State := bif c then f s else s

/-! ## Configuration, address, phase -/

/-- The working copy as the blocks read it. -/
def State.cfg (s : State) : Cfg := s.stu.cfg.getD Cfg.unconfigured

/-- The station address (R214). -/
def State.own (s : State) : Nat := (s.stu.addrRead.getD 0).toNat

/-- The station has joined and runs (R219). -/
def State.running (s : State) : Bool := s.stu.phase == .running

/-- The fault level is SAFE. -/
def State.inSafe (s : State) : Bool := s.flt.level == .safe

/-! ## Input lines (R176, R178) -/

/-- `w` with bit `i` set to `b`. -/
def setBit {n : Nat} (w : BitVec n) (i : Nat) (b : Bool) : BitVec n :=
  bif b then w ||| (1#n <<< i) else w &&& ~~~(1#n <<< i)

/-- The accepted level of an input as its owner reads it: inactive until the first accepted level. R192 says so of an input that is
unsettled at the 15 ms report; that it reads so before that report too, in STATUS READ during SETTLING, is the model's choice
(DESIGN CHOICE, assumption log 26). -/
def State.inp (s : State) (i : Input) : Bool := (s.sig.filters[i.idx]).acc.getD false

/-- R178: the input is configured inverted. -/
def Cfg.inverted (c : Cfg) (i : Input) : Bool := c.inPol.getMsbD i.idx

/-- The level `b` of an input has been accepted: where the filter holds it already, as the filter's own sample has left it,
nothing changes; otherwise the filter takes it, with the run count 0 and the pin at the level that shows `b` (R176;
assumption log 5). -/
def State.setLevel (s : State) (i : Input) (b : Bool) : State :=
  if (s.sig.filters[i.idx]).acc = some b then s
  else
    { s with sig := { s.sig with
        filters := s.sig.filters.set i.idx { acc := some b, run := 0 }
        pins := { s.sig.pins with pins := setBit s.sig.pins.pins i.idx (b ^^ s.cfg.inverted i) } } }

/-! ## Event sources (R208) -/

/-- The place of a source, its ID less 1. -/
def EventSrc.idx : EventSrc → Fin 16
  | .safeEntered => 0 | .alertEntered => 1 | .starveExpected => 2 | .barOut => 3 | .lotDone => 4 | .barEnd => 5
  | .barLoaded => 6 | .stockOut => 7 | .remnantTrayFull => 8 | .rejectBinFull => 9 | .holdFull => 10
  | .watchHit => 11 | .lineNotice => 12 | .shuttleNotice => 13 | .partMissing => 14 | .beltSynced => 15

/-- R208: a raised source becomes pending when its priority is 1 or more. -/
def State.raise (s : State) (e : EventSrc) : State :=
  { s with mpt := { s.mpt with
      sources := s.mpt.sources.set e.idx
        { s.mpt.sources[e.idx] with pending := s.mpt.sources[e.idx].pending || 1 ≤ s.mpt.sources[e.idx].priority } } }

/-! ## Fault kinds (R159) -/

/-- The code of a kind: its place in the kind table, from 1 (section 12.3). -/
def FaultKind.code : FaultKind → Nat
  | .pusherStall => 1 | .colletNotOpen => 2 | .colletClosedInMotion => 3 | .feedDeviation => 4 | .barNotSeen => 5
  | .wrongBar => 6 | .measureFail => 7 | .dropUnconfirmed => 8 | .gripShort => 9 | .overtravel => 10
  | .homeFail => 11 | .guardOpen => 12 | .partMissing => 13 | .shortBar => 14 | .barLengthOdd => 15
  | .unexpectedCut => 16 | .dispatchMiss => 17 | .shuttleSilent => 18 | .deliveryMissing => 19 | .stockOut => 20
  | .rackOverfill => 21 | .lineDiscard => 22 | .lineWithdrawn => 23 | .addressClash => 24 | .beltSyncLost => 25
  | .beltSizeMismatch => 26 | .claimConflict => 27

/-- R160: the event source of a notice. The kinds that are no notice have none. -/
def FaultKind.source : FaultKind → Option EventSrc
  | .lineDiscard | .lineWithdrawn | .addressClash | .beltSyncLost | .beltSizeMismatch | .claimConflict =>
    some .lineNotice
  | .dispatchMiss | .shuttleSilent | .deliveryMissing | .rackOverfill => some .shuttleNotice
  | .stockOut => some .stockOut
  | .partMissing | .unexpectedCut => some .partMissing
  | .shortBar | .barLengthOdd => some .barLoaded
  | .pusherStall | .colletNotOpen | .colletClosedInMotion | .feedDeviation | .barNotSeen | .wrongBar | .measureFail
  | .dropUnconfirmed | .gripShort | .overtravel | .homeFail | .guardOpen => none

/-- R160: FLT takes a notice. -/
def State.notice (s : State) (k : FaultKind) (ctx : Option Nat) : State :=
  let s := s.onFlt fun f => { f with last := some (k, ctx), notices := f.notices + 1 }
  match k.source with
  | some e => s.raise e
  | none => s

/-- R161, R162, R164: a further fault. -/
def Flt.addFurther (f : Flt) (k : FaultKind) : Flt :=
  { f with further := min 255 (f.further + 1), furtherSet := setBit f.furtherSet (k.code - 1) true }

/-- R161: what FLT itself records of a step fault: the alert capture from NORMAL, a further fault otherwise. -/
def Flt.takeStep (f : Flt) (k : FaultKind) (c : Capture) : Flt :=
  match f.level with
  | .normal => { f with level := .alert, alert := some c, further := 0, furtherSet := 0 }
  | .alert | .safe => f.addFurther k

/-! ## The feed engine held (R28) -/

/-- R28, R165: the engine is paused by either cause, or the level is SAFE. -/
def State.feedHeld (s : State) : Bool := s.flt.feedPaused.isSome || s.fsq.pauseWatch || s.inSafe

/-- R28, R46: what a pause makes of a move: one that waits or drives is interrupted and keeps its target; one that is
past its stop point coasts on, and the pause holds the step that would follow. The spec does not say whether such a move ends when
it has settled (R24, R25) or is kept by the pause (R28, R46): the model keeps it until the pause ends, and COLLET_ILK stays
asserted with it (DESIGN CHOICE, assumption log 19). -/
def Move.hold (m : Move) : Move :=
  match m.phase with
  | .coasting => m
  | .waiting | .driving | .interrupted => { m with phase := .interrupted, fast := false }

/-- R28, R186: the feed engine stops: the move is held, pulses end, the running limit stops, the home zero is disarmed. -/
def State.holdFeed (s : State) : State :=
  let s := s.onSig fun g => { g with zeroArmed := false }
  s.onFsq fun f => { f with move := f.move.map Move.hold, limit := none, escape := none, eject := none }

/-- R161, R165: a step fault of the feed engine. -/
def State.stepFeed (s : State) (k : FaultKind) (ctx : Option Nat) : State :=
  let st := s.fsq.st
  let level := s.flt.level
  let s := s.onFlt fun f => f.takeStep k
    { kind := k, engine := .feed, state := .feed st, ctx := ctx, fromLevel := none, active := true }
  let s := s.onlyIf (level != .safe) fun s => (s.onFlt fun f => { f with feedPaused := some (k, st) }).holdFeed
  s.onlyIf (level == .normal) fun s => s.raise .alertEntered

/-- R151, R161, R165: DROP_UNCONFIRMED, the step fault of the unload engine. -/
def State.stepUnload (s : State) (pocket : Nat) (o : DropOutcome) : State :=
  let level := s.flt.level
  let s := s.onFlt fun f => f.takeStep .dropUnconfirmed
    { kind := .dropUnconfirmed, engine := .unload, state := .drop o, ctx := some pocket, fromLevel := none,
      active := true }
  let s := s.onlyIf (level != .safe) fun s => s.onFlt fun f =>
    { f with unloadPaused := some (.dropUnconfirmed, o) }
  s.onlyIf (level == .normal) fun s => s.raise .alertEntered

/-- R163, R169, R171: clears the active marks of both captures and makes the level NORMAL. -/
def Flt.toNormal (f : Flt) : Flt :=
  { f with level := .normal, alert := f.alert.map fun c => { c with active := false },
           safe := f.safe.map fun c => { c with active := false } }

/-! ## Jobs, positions and bars (chapter 1) -/

/-- R1: the consumption per part. -/
def Job.c (j : Job) : Nat := j.lp + j.wc + j.af

/-- R56: Q with 0 read as 65,536. -/
def Job.quantity (j : Job) : Nat := if j.q = 0 then 65536 else j.q

/-- The lot count has reached Q (R13, R32, R44). -/
def State.lotReached (s : State) : Bool :=
  match s.mpt.job with
  | some j => j.quantity ≤ s.mpt.lotCount
  | none => false

/-- R23: P as a function of the encoder count, floor(e × 100 / E). -/
def positionOf (e : Word32) (edges : Nat) : Int := (e.toInt * 100) / (edges : Int)

/-- R23: the pusher position, absent until the first home switch edge of HOMING. -/
def State.posn (s : State) : Option Int := if s.fsq.pKnown then some (positionOf s.fsq.e s.cfg.edges) else none

/-- R9: the remaining length. -/
def State.lr (s : State) : Option Int :=
  match s.bac.current, s.fsq.pCut with
  | some _, some p => some ((s.cfg.xFace : Int) - p)
  | _, _ => none

/-- R9: the parts a remaining length gives under a job. -/
def partsOf (j : Job) (lr : Int) : Nat := if lr < j.lg then 0 else ((lr - j.lg) / (j.c : Int)).toNat

/-- R9: the parts available from the current bar. -/
def State.np (s : State) : Nat :=
  match s.mpt.job, s.lr with
  | some j, some lr => partsOf j lr
  | _, _ => 0

/-- A table with every entry changed by `f`, as a list the kernel can evaluate. -/
def mapTable {α β : Type} {n : Nat} (f : α → β) (v : Vector α n) : Vector β n := ⟨⟨v.toList.map f⟩, by simp⟩

/-- The entry of a bar type in a table of 15 (R17). -/
def atType {α : Type} (v : Vector α 15) (t : Nat) (d : α) : α := if t = 0 then d else (v[t - 1]?).getD d

/-- The table with the entry of a bar type replaced. -/
def setType {α : Type} (v : Vector α 15) (t : Nat) (x : α) : Vector α 15 :=
  if t = 0 then v else v.setIfInBounds (t - 1) x

/-- The configured entry of a bar type; no type outside 1 to 15 may be used. -/
def State.typeCfg (s : State) (t : Nat) : BarTypeCfg :=
  atType s.cfg.barTypes t { nominal := 0, stock := .barred, locked := false }

/-- The learned entry of a bar type. -/
def State.learnedOf (s : State) (t : Nat) : Learned := atType s.bac.learned t { la4 := 0, count := 0, hold := 0 }

/-- R19: the learned length La. -/
def Learned.la (l : Learned) : Nat := (l.la4 + 2) / 4

/-- R19: the length of a waiting bar of a type. -/
def State.typeLength (s : State) (t : Nat) : Nat :=
  if 3 ≤ (s.learnedOf t).count then (s.learnedOf t).la else (s.typeCfg t).nominal

/-- R2: the WRONG_TYPE mark of a record under the present job. -/
def wrongTypeOf (job : Option Job) (t : Option Nat) : Bool :=
  match job, t with
  | some j, some t => t != j.barType
  | _, _ => false

/-- R2: a new record of this origin, with the job type where the origin takes it. The table of section 1.2 has the type of a
FOUND bar absent only before any job, and the rule absent at creation until the next JOB SET. Of a FOUND bar recorded with a job
present, at leaving NO_JOB, at the end of HOMING or at a late first level of CHANNEL, the type is absent: DESIGN CHOICE
(assumption log 22). -/
def State.newBar (s : State) (o : Origin) : BarRec :=
  let t := if o = .found then none else s.mpt.job.map (·.barType)
  { barType := t, origin := o, length := none, verified := false, wrongType := wrongTypeOf s.mpt.job t }

/-- R3: rack list and en-route records together. -/
def State.waitingBars (s : State) : Nat := s.bac.rack.length + (if s.bac.enRoute.isSome then 1 else 0)

/-- R110, R4: a rack entry edge taken as a manual bar. -/
def State.manualBar (s : State) : State :=
  if s.waitingBars < Config.rackCapacity then
    s.onBac fun b => { b with rack := b.rack ++ [s.newBar .manual] }
  else s.notice .rackOverfill none

/-- R5: BAC discards the rack head record. -/
def State.dropHead (s : State) : State := s.onBac fun b => { b with rack := b.rack.tail }

/-- R14, R30: the current bar record goes, with P_cut and the feed target; Lr is then absent and Np 0. -/
def State.removeCurrent (s : State) : State :=
  (s.onBac fun b => { b with current := none }).onFsq fun f => { f with pCut := none, target := none }

/-- R21, R30, R31: BAC creates a FOUND record for a bar in the channel that has none. -/
def State.foundBar (s : State) : State :=
  s.onlyIf s.bac.current.isNone fun s => s.onBac fun b => { b with current := some (s.newBar .found) }

/-- R15: the remnant tray has room. -/
def State.trayRoom (s : State) : Bool := s.bac.tray < s.cfg.trayCap

/-! ## The hold queue and its conditions (R138 to R140) -/

/-- R138: the hold fill. -/
def State.holdFill (s : State) : Nat := s.uns.hold.length

/-- R139: the hold-full condition. -/
def State.holdFull (s : State) : Bool := Config.holdCapacity ≤ s.holdFill

/-- R139: the bin-full condition. -/
def State.binFull (s : State) : Bool := s.cfg.binCap ≤ s.bac.bin

/-- R140: the own PRESSED mark. -/
def State.pressed (s : State) : Bool := 4 ≤ s.holdFill

/-- R139: UNS permits a feed. -/
def State.feedPermitted (s : State) : Bool := s.holdFill ≤ 5 && !s.binFull && s.uns.catching.isNone

/-! ## Station flags (section 10.5) -/

def State.holdClaims (s : State) : Bool := s.mpt.flags.getLsbD 0
def State.holdDispatch (s : State) : Bool := s.mpt.flags.getLsbD 1
def State.holdLoading (s : State) : Bool := s.mpt.flags.getLsbD 2
def State.rejectAll (s : State) : Bool := s.mpt.flags.getLsbD 3
def State.sampleNext (s : State) : Bool := s.mpt.flags.getLsbD 4

end Sys2Proof.Machine
end

