-- ==== Sys2Proof/Machine/Flags.lean ====
section
/-! DEFINITION. The levels and marks that are a view of other state: the MACHINE_HOLD requests, the claimable sources and
ATTN, the commanded level and the pin state of every output, and the state summary of PRESENCE. -/
namespace Sys2Proof.Machine

/-! ## MACHINE_HOLD (R139, R165, R195) -/

/-- R165: the fault unit's request. -/
def State.faultHold (s : State) : Bool := s.flt.feedPaused.isSome || s.inSafe

/-- R139: the unload sequencer's request. -/
def State.unloadHold (s : State) : Bool := s.running && (s.holdFull || s.binFull)

/-- R195: MACHINE_HOLD follows the union of the requests. -/
def State.machineHold (s : State) : Bool := s.faultHold || s.unloadHold

/-! ## Event sources (R196, R208, R209) -/

/-- R208: a source is claimable under a threshold. -/
def Source.claimable (x : Source) (threshold : Nat) : Bool :=
  x.pending && !x.inService && threshold < x.priority

/-- R208: source `i` is claimable now. -/
def Mpt.claimable (m : Mpt) (i : Fin 16) : Bool := (m.sources[i]).claimable m.threshold

/-- R196: ATTN. -/
def Mpt.attn (m : Mpt) : Bool := m.sources.toList.any fun x => x.claimable m.threshold

/-- R209: of two sources, the one EVENT CLAIM prefers: the higher priority, then the lower ID. -/
def Mpt.better (m : Mpt) (best : Option (Fin 16)) (i : Fin 16) : Option (Fin 16) :=
  if m.claimable i then
    match best with
    | none => some i
    | some b => if (m.sources[b]).priority < (m.sources[i]).priority then some i else some b
  else best

/-- R209: the source EVENT CLAIM chooses. -/
def Mpt.choice (m : Mpt) : Option (Fin 16) := (List.finRange 16).foldl m.better none

/-! ## Outputs (R187 to R191) -/

/-- A move drives the pusher in this direction. -/
def Fsq.drives (f : Fsq) (d : Dir) : Bool :=
  match f.move with
  | some m => m.phase == .driving && m.dir == d
  | none => false

/-- R24: the driving move is fast. -/
def Fsq.drivesFast (f : Fsq) : Bool :=
  match f.move with
  | some m => m.phase == .driving && m.fast
  | none => false

/-- R187: the commanded level of every output, as its owner's rules form it. -/
def State.commanded (s : State) : Output → Bool
  | .pushFwd => s.fsq.drives .fwd
  | .pushRev => s.fsq.drives .rev
  | .pushFast => s.fsq.drivesFast
  | .colletIlk => s.fsq.move.isSome
  | .escape => s.fsq.escape.isSome
  | .eject => s.fsq.eject.isSome
  | .feedDone => s.fsq.feedDone
  | .barOut => s.fsq.barOut
  | .lotEnd => s.running && s.fsq.st == .lotDone
  | .divert => s.uns.divert
  | .gate => s.uns.gate.isSome
  | .machineHold => s.machineHold
  | .attn => s.mpt.attn

/-- R187: the pin level of an asserted or deasserted output through its polarity. -/
def Cfg.drive (c : Cfg) (o : Output) (asserted : Bool) : PinLevel :=
  if asserted ^^ c.outPol.getMsbD o.idx then .high else .low

/-- R188, R167: the safe-state selection of an output; MACHINE_HOLD is ON, and ATTN has none. -/
def Cfg.safeSelOf (c : Cfg) (o : Output) : Option SafeSel :=
  match o with
  | .attn => none
  | .machineHold => some .on
  | _ => c.safeSel[(o.idx : Nat)]?

/-- R187 to R191: the pin state that the next sample instant drives. An output selected HOLD keeps, in SAFE, the state of the
last one. -/
def State.formedPin (s : State) (o : Output) : PinLevel :=
  if s.stu.cfg.isNone then .highZ
  else if s.inSafe then
    match s.cfg.safeSelOf o with
    | some .hold => s.sig.outPins[o.idx]
    | some .off => s.cfg.drive o false
    | some .on => s.cfg.drive o true
    | some .float => .highZ
    | none => s.cfg.drive o (s.commanded o)
  else s.cfg.drive o (s.commanded o)

/-- R187: the pin states that the next sample instant drives, in the table's order. -/
def State.formedPins (s : State) : Vector PinLevel 13 :=
  #v[s.formedPin .pushFwd, s.formedPin .pushRev, s.formedPin .pushFast, s.formedPin .colletIlk, s.formedPin .escape,
     s.formedPin .eject, s.formedPin .feedDone, s.formedPin .barOut, s.formedPin .lotEnd, s.formedPin .divert,
     s.formedPin .gate, s.formedPin .machineHold, s.formedPin .attn]

/-- R187: the pin state of an output, as the last sample instant left it. -/
def State.pinState (s : State) (o : Output) : PinLevel := s.sig.outPins[o.idx]

/-! ## The state summary (R94) -/

/-- R94: the first row that applies. -/
def State.summaryNow (s : State) : Summary :=
  if s.inSafe then .safe
  else if s.flt.level == .alert then .alert
  else if s.mpt.job.isNone then .noJob
  else if s.fsq.st == .lotDone then .lotDone
  else if s.machineHold then .hold
  else .run

end Sys2Proof.Machine
end

