-- ==== Sys2Proof/Machine/Operands.lean ====
section
/-! DEFINITION. The forms of values that cross a pin as bytes: multi-byte values, the enumeration codes, the command table of
section 12.2 and the payload fields of the commands. -/
namespace Sys2Proof.Machine

/-! ## Multi-byte values, most significant byte first (chapter 12) -/

/-- The `n` bytes of an unsigned value. -/
def beBytes : Nat → Nat → List Byte
  | 0, _ => []
  | n + 1, v => beBytes n (v / 256) ++ [BitVec.ofNat 8 v]

/-- The unsigned value of bytes, most significant first. -/
def beNat (bs : List Byte) : Nat := bs.foldl (fun v b => v * 256 + b.toNat) 0

/-- The `n` bytes of a signed value in two's complement. -/
def beInt (n : Nat) (v : Int) : List Byte := beBytes n (v % (256 : Int) ^ n).toNat

/-- The signed value of bytes. -/
def beSigned (bs : List Byte) : Int :=
  let v := beNat bs
  if 2 * v < 256 ^ bs.length then v else (v : Int) - (256 : Int) ^ bs.length

/-- R223: an absent unsigned value is sent with all bits set. -/
def beOpt (n : Nat) : Option Nat → List Byte
  | some v => beBytes n v
  | none => List.replicate n 0xFF

/-- R223: an absent signed value is sent as the most negative value of its width. -/
def beOptInt (n : Nat) : Option Int → List Byte
  | some v => beInt n v
  | none => beInt n (-(2 : Int) ^ (8 * n - 1))

/-- A flag byte. -/
def flagByte (b : Bool) : List Byte := [if b then 1 else 0]

/-- One byte of a small value. -/
def byteOf (v : Nat) : List Byte := [BitVec.ofNat 8 v]

/-- `n` bytes of `bs` from offset `i`. -/
def slice (bs : List Byte) (i n : Nat) : List Byte := (bs.drop i).take n

/-- The unsigned field of `n` bytes at offset `i`. -/
def fieldNat (bs : List Byte) (i n : Nat) : Nat := beNat (slice bs i n)

/-- Bits packed most significant first, as a value of `n` bytes (section 12.4). -/
def packBits (n : Nat) (bits : List Bool) : List Byte :=
  beBytes n (bits.foldl (fun v b => 2 * v + (if b then 1 else 0)) 0 * 2 ^ (8 * n - bits.length))

/-! ## Enumeration codes: places in the table of the chapter named, from 1 (chapter 12) -/

def Phase.code : Phase → Nat
  | .straps => 1 | .reading => 2 | .settling => 3 | .running => 4 | .unconfigured => 5

def Reason.code : Reason → Nat
  | .straps => 1 | .address => 2 | .memory => 3 | .sum => 4

def Level.code : Level → Nat
  | .normal => 1 | .alert => 2 | .safe => 3

def FeedState.code : FeedState → Nat
  | .homing => 1 | .noJob => 2 | .remeasure => 3 | .noBar => 4 | .loading => 5 | .measuring => 6 | .positioning => 7
  | .ready => 8 | .feeding => 9 | .cutting => 10 | .barEnd => 11 | .ejecting => 12 | .lotDone => 13

def Origin.code : Origin → Nat
  | .shuttle => 1 | .manual => 2 | .found => 3

def Stock.code : Stock → Nat
  | .stocked => 1 | .barred => 2

def DispatchState.code : DispatchState → Nat
  | .none => 1 | .waiting => 2 | .queued => 3 | .sent => 4 | .enRoute => 5

/-- Section 5.3: the place in its list of values, absent being 0. That FAULT is 3, and not 4 as in the kind tables of R98 and section
12.1, is the model's choice (assumption log 15). -/
def ShuttleState.code : ShuttleState → Nat
  | .absent => 0 | .idle => 1 | .busy .. => 2 | .fault .. => 3

def ShuttleFaultKind.code : ShuttleFaultKind → Nat
  | .laneEmpty => 1 | .stopped => 2

def LineState.code : LineState → Nat
  | .off => 1 | .listening => 2 | .active => 3 | .withdrawn => 4 | .quiet => 5

def Sync.code : Sync → Nat
  | .unsynced => 1 | .filling .. => 2 | .synced .. => 3

def Summary.code : Summary → Nat
  | .safe => 1 | .alert => 2 | .noJob => 3 | .lotDone => 4 | .hold => 5 | .run => 6

/-- R94, R95: the state summary of a code. -/
def Summary.ofCode : Nat → Option Summary
  | 1 => some .safe | 2 => some .alert | 3 => some .noJob | 4 => some .lotDone | 5 => some .hold | 6 => some .run
  | _ => none

def Mark.code : Mark → Nat
  | .good => 1 | .sample => 2 | .unverified => 3

/-- R123: the part mark of a code. -/
def Mark.ofCode : Nat → Option Mark
  | 1 => some .good | 2 => some .sample | 3 => some .unverified
  | _ => none

def Outcome.code : Outcome → Nat
  | .good => 1 | .sample => 2 | .unknown => 3

/-- R151: the part mark of an outcome. -/
def Outcome.mark : Outcome → Mark
  | .good => .good | .sample => .sample | .unknown => .unverified

def Engine.code : Engine → Nat
  | .feed => 1 | .unload => 2 | .station => 3

def DropOutcome.code : DropOutcome → Nat
  | .partInTray => 1 | .trayEmpty => 2

def CapturedState.code : CapturedState → Nat
  | .feed st => st.code
  | .drop o => o.code

def Status.code : Status → Nat
  | .done => 0 | .notReady => 1 | .busy => 2 | .setup => 3 | .range => 4 | .type => 5 | .state => 6
  | .unconfigured => 7 | .unknown => 8

def PinLevel.code : PinLevel → Nat
  | .low => 0 | .high => 1 | .highZ => 2

def Entry.code : Entry → Nat
  | .unknown => 1 | .free => 2 | .claimed .. => 3 | .loaded .. => 4

def ClaimStage.code : ClaimStage → Nat
  | .queued => 1 | .held => 2 | .armed => 3

def CloseStage.code : CloseStage → Nat
  | .dropping => 4
  | .awaitConfirm | .awaitDrop | .awaitRelease | .awaitClaim => 5

/-! ## Command bytes (section 12.2) -/

/-- The payload length of the command a byte names; none for the bytes that name no command. -/
def commandLength (b : Byte) : Option Nat :=
  match b.toNat with
  | 0x01 => some 0
  | 0x10 => some 15
  | 0x11 => some 0
  | 0x12 => some 7
  | 0x20 => some 2
  | 0x21 => some 0
  | 0x22 => some 0
  | 0x30 => some 1
  | 0x31 => some 1
  | 0x32 => some 1
  | 0x40 => some 0
  | 0x41 => some 1
  | 0x42 => some 2
  | 0x43 => some 1
  | 0x50 => some 2
  | 0x51 => some 0
  | 0x60 => some 5
  | 0x61 => some 0
  | 0x70 => some 0
  | 0x71 => some 0
  | 0x7E => some 0
  | 0x7F => some 128
  | _ => none

/-! ## Payload fields (section 12.2) -/

/-- The eight fields of a JOB SET payload. -/
def jobOf (p : List Byte) : Job where
  lp := fieldNat p 0 2
  wc := fieldNat p 2 2
  af := fieldNat p 4 2
  lg := fieldNat p 6 2
  lt := fieldNat p 8 2
  barType := fieldNat p 10 1
  tn := fieldNat p 11 2
  q := fieldNat p 13 2

/-- The 15 bytes of a job (section 12.3, JOB READ). -/
def Job.bytes (j : Job) : List Byte :=
  beBytes 2 j.lp ++ beBytes 2 j.wc ++ beBytes 2 j.af ++ beBytes 2 j.lg ++ beBytes 2 j.lt ++ byteOf j.barType ++
    beBytes 2 j.tn ++ beBytes 2 j.q

/-- Section 1.1 and section 10.3: every field of the job lies in its range. -/
def Job.inRange (j : Job) : Bool :=
  (100 ≤ j.lp && j.lp ≤ 50000) && (50 ≤ j.wc && j.wc ≤ 600) && j.af ≤ 200 && (2000 ≤ j.lg && j.lg ≤ 30000) &&
    j.lt ≤ 2000 && (1 ≤ j.barType && j.barType ≤ 15) && (100 ≤ j.tn && j.tn ≤ 60000)

end Sys2Proof.Machine
end

