-- ==== Sys2Proof/Machine/Line.lean ====
section
/-! DEFINITION. The frame on the aisle line: arbitration value, check, stuffing, the bits a sender sends, and what a receiver
makes of the bits it samples, the place in a frame, and the bits of an objection (R67 to R77). A bit is `true` for recessive. -/
namespace Sys2Proof.Machine

/-- The contents of a frame: arbitration value (16 bits) and payload. -/
structure Frame where
  value   : Word16
  payload : List Byte
deriving DecidableEq, Repr

/-- Section 12.1: the class of an arbitration value. -/
def Frame.cls (f : Frame) : BitVec 3 := f.value.extractLsb' 13 3

/-- Section 12.1: the sender address of an arbitration value. -/
def Frame.sender (f : Frame) : LineAddr := f.value.extractLsb' 0 6

/-- R73, section 12.1: the arbitration value of a class, a key value and an address. -/
def arbitration (cls key addr : Nat) : Nat := cls * 8192 + key * 512 + addr

/-- The bits of a value of `n` bits, most significant first. -/
def bitsOf : (n : Nat) → Nat → List Bool
  | 0, _ => []
  | n + 1, v => (v / 2 ^ n % 2 == 1) :: bitsOf n v

/-- The value of bits, most significant first. -/
def natOfBits (bs : List Bool) : Nat := bs.foldl (fun v b => 2 * v + b.toNat) 0

/-- R71: the check register after one covered bit. -/
def crcStep (r : Word16) (b : Bool) : Word16 :=
  let shifted := r <<< 1
  if r.msb != b then shifted ^^^ 0x8005 else shifted

/-- R71: the check of the covered bits. -/
def crcOf (bits : List Bool) : Word16 := bits.foldl crcStep 0xFFFF

/-- R70: the bits the check covers: arbitration field, length, payload. -/
def Frame.covered (f : Frame) : List Bool :=
  bitsOf 16 f.value.toNat ++ bitsOf 4 f.payload.length ++ f.payload.flatMap fun b => bitsOf 8 b.toNat

/-- R69, R70: the bits from the start bit through the check, before stuffing. -/
def Frame.body (f : Frame) : List Bool := false :: f.covered ++ bitsOf 16 (crcOf f.covered).toNat

/-- R69: stuffing. `last` is the level of the running run of equal bits and `run` its length. -/
def stuff : Bool → Nat → List Bool → List Bool
  | _, _, [] => []
  | last, run, b :: bs =>
    let run' := if b = last then run + 1 else 1
    if run' = 6 then b :: (!b) :: stuff (!b) 1 bs else b :: stuff b run' bs

/-- R70: the bits of a whole frame as a sender sends them: the stuffed part, the end bit, the objection window. -/
def Frame.bits (f : Frame) : List Bool := stuff true 0 f.body ++ [true, true, true]

/-- What removing stuff bits from the front of a bit sequence gives. -/
inductive Unstuffed where
  /-- The wanted bits, with the level and length of the running run and the rest of the sequence. -/
  | got (bits : List Bool) (last : Bool) (run : Nat) (rest : List Bool)
  | violation
  | short
deriving DecidableEq, Repr

/-- Puts a bit in front of what was got. -/
def Unstuffed.cons (b : Bool) : Unstuffed → Unstuffed
  | .got bits last run rest => .got (b :: bits) last run rest
  | .violation => .violation
  | .short => .short

/-- R69: `n` bits of a frame with the stuff bits removed. A stuff bit is expected after every sixth equal bit; the one that
follows the last of the `n` bits is left in the rest, the run then standing at 6. -/
def unstuff : Nat → Bool → Nat → List Bool → Unstuffed
  | 0, last, run, rest => .got [] last run rest
  | _ + 1, _, _, [] => .short
  | n + 1, last, run, b :: bs =>
    if run = 6 then
      if b = last then .violation
      else
        match bs with
        | [] => .short
        | x :: bs' => (unstuff n x (if x = b then 2 else 1) bs').cons x
    else (unstuff n b (if b = last then run + 1 else 1) bs).cons b

/-- What a receiver decides of a frame (R76, R77). -/
inductive Received where
  | good (f : Frame)
  /-- A condition of R76 was found. -/
  | flawed (flaw : FrameFlaw)
  /-- None was found, and a window bit was dominant. -/
  | objected
  /-- The bits end before the frame does. -/
  | incomplete
deriving DecidableEq, Repr

/-- The bytes of a bit sequence, most significant bit first. -/
def bytesOfBits : Nat → List Bool → List Byte
  | 0, _ => []
  | n + 1, bs => BitVec.ofNat 8 (natOfBits (bs.take 8)) :: bytesOfBits n (bs.drop 8)

/-- R76, R77: the decision at the end bit and the window. -/
def decideEnd (f : Frame) : List Bool → Received
  | false :: _ => .flawed .dominantEnd
  | true :: w1 :: w2 :: _ => if w1 && w2 then .good f else .objected
  | [true, _] | [true] | [] => .incomplete

/-- R69, R76: the stuff bit that may follow the last bit of a sound check, then the end bit and the window. -/
def decideTail (f : Frame) (last : Bool) (run : Nat) (bits : List Bool) : Received :=
  if run = 6 then
    match bits with
    | [] => .incomplete
    | x :: rest => if x = last then .flawed .stuffViolation else decideEnd f rest
  else decideEnd f bits

/-- R76, R77: what a receiver makes of the bits of one frame read so far, start bit first. Each condition is found at the bit
of the table of R76, the first of them alone. -/
def receive (bits : List Bool) : Received :=
  match unstuff 21 true 0 bits with
  | .violation => .flawed .stuffViolation
  | .short => .incomplete
  | .got head last run rest =>
    let n := natOfBits (head.drop 17)
    if 13 ≤ n then .flawed .badLength
    else
      match unstuff (8 * n + 16) last run rest with
      | .violation => .flawed .stuffViolation
      | .short => .incomplete
      | .got tail last run after =>
        let covered := head.drop 1 ++ tail.take (8 * n)
        if natOfBits (tail.drop (8 * n)) = (crcOf covered).toNat then
          decideTail { value := BitVec.ofNat 16 (natOfBits ((head.drop 1).take 16)), payload := bytesOfBits n tail }
            last run after
        else .flawed .checkMismatch

/-! ## The line (R67, R72, R74, R76) -/

/-- R67: the level of the line with these two driving it: recessive where both are, dominant otherwise. -/
def wiredAnd (a b : Bool) : Bool := a && b

/-- R69: where the bits of a frame stand: the level and the length of the running run, and how many of them were no stuff
bits. -/
structure Place where
  last  : Bool
  run   : Nat
  count : Nat
deriving DecidableEq, Repr

/-- R69: one bit more. -/
def Place.next (p : Place) (b : Bool) : Place :=
  { last := b
    run := if b = p.last then p.run + 1 else 1
    count := if p.run = 6 then p.count else p.count + 1 }

/-- R69: the place after these bits, start bit first. -/
def placeOf (bits : List Bool) : Place := bits.foldl Place.next { last := true, run := 0, count := 0 }

/-- R69: the bit that follows these is a stuff bit, up to the one after the check. -/
def stuffFollows (bits : List Bool) : Bool := (placeOf bits).run == 6

/-- R74: the bit that follows these belongs to the arbitration field; a stuff bit within it does not. -/
def arbitrates (bits : List Bool) : Bool :=
  !stuffFollows bits && (1 ≤ (placeOf bits).count && (placeOf bits).count ≤ 16)

/-- R73, section 12.1: the class of a frame, from its bits; its three bits follow the start bit with no stuff bit between. -/
def classOfBits (bits : List Bool) : BitVec 3 := BitVec.ofNat 3 (natOfBits ((bits.drop 1).take 3))

/-- R72: the idle gap in bit times. -/
def gapBits : Nat := 10

/-- R76: the bits that an objection to a frame still drives, once its condition is found with the receiver as it then stands:
8 dominant bits at once; or both window bits, after the bits that still come before the window. -/
def objectionBits (flaw : FrameFlaw) (rx : Rx) : List Bool :=
  match flaw with
  | .stuffViolation | .badLength => List.replicate 8 false
  | .checkMismatch | .dominantEnd =>
    match rx with
    | .passing left _ => List.replicate (left - 2) true ++ [false, false]
    | .free _ | .reading _ _ => [false, false]

/-- R72, R76: how a frame with this condition, its bits these, goes on for the receiver: a frame whose end it can place passes
with its end, the others are over, and a dominant bit that follows at once belongs to an objection. -/
def afterFlaw (flaw : FrameFlaw) (bits : List Bool) (how : Hearing) : Rx :=
  match flaw with
  | .stuffViolation | .badLength => .free false
  | .checkMismatch => .passing (if stuffFollows bits then 4 else 3) how
  | .dominantEnd => .passing 2 how

end Sys2Proof.Machine
end

