-- ==== Sys2Proof/Decode.lean ====
section
/-! DEFINITION. What words and bytes spell a command. The rows of spec/opcode_table.json give no bits, so a table word spells no
command. The commands of the machine port are spelled by the bytes of an SPI frame (R197, section 12.2), and the telegrams by
the frames of the aisle line (R73, R78, R222, section 12.1): both directions stand here. -/
namespace Sys2Proof

open Sys2Proof.Machine (Frame commandLength fieldNat byteOf beBytes beNat arbitration)

/-- The command a table word spells: none, since no row of the table gives bits (assumption log 17). -/
def decodeTableWord (_nbits _w : Nat) : Option Instr := none

/-! ## Frames of the machine port (R197, R198, section 12.2) -/

/-- The command of a well-formed frame with this command byte and payload. -/
def commandOf (code : Byte) (payload : List Byte) : Instr :=
  match code.toNat with
  | 0x10 => .jobSet payload
  | 0x11 => .jobRead payload
  | 0x12 => .lotSet payload
  | 0x20 => .statusRead payload
  | 0x21 => .faultRead payload
  | 0x22 => .countsRead payload
  | 0x30 => .flagsSet payload
  | 0x31 => .flagsClear payload
  | 0x32 => .flagsFlip payload
  | 0x40 => .eventClaim payload
  | 0x41 => .eventComplete payload
  | 0x42 => .eventPrioritySet payload
  | 0x43 => .eventThresholdSet payload
  | 0x50 => .resume payload
  | 0x51 => .faultClear payload
  | 0x60 => .watchSet payload
  | 0x61 => .watchOff payload
  | 0x70 => .remnantTrayEmptied payload
  | 0x71 => .rejectBinEmptied payload
  | 0x7E => .restart payload
  | 0x7F => .configLoad payload
  | _ => .unknownCommand code payload

/-- R197: the command of the whole bytes clocked between the edges of CS_N; `whole` says that the frame ends on a byte
boundary, with no further bits. A frame that opens with the READ RESPONSE byte and a length of 0 is that command however it
goes on. -/
def portCommand (whole : Bool) (bytes : List Byte) : Instr :=
  let times := bytes.length + (if whole then 0 else 1)
  match bytes with
  | code :: n :: payload =>
    if code = 0x01 ∧ n = 0 then .readResponse times
    else if whole ∧ payload.length = n.toNat then commandOf code payload
    else .malformedFrame times
  | _ => .malformedFrame times

/-- Section 12.2: the command byte and the payload of a command of the port. -/
def portBody : Instr → Option (Byte × List Byte)
  | .readResponse _ => some (0x01, [])
  | .jobSet p => some (0x10, p)
  | .jobRead p => some (0x11, p)
  | .lotSet p => some (0x12, p)
  | .statusRead p => some (0x20, p)
  | .faultRead p => some (0x21, p)
  | .countsRead p => some (0x22, p)
  | .flagsSet p => some (0x30, p)
  | .flagsClear p => some (0x31, p)
  | .flagsFlip p => some (0x32, p)
  | .eventClaim p => some (0x40, p)
  | .eventComplete p => some (0x41, p)
  | .eventPrioritySet p => some (0x42, p)
  | .eventThresholdSet p => some (0x43, p)
  | .resume p => some (0x50, p)
  | .faultClear p => some (0x51, p)
  | .watchSet p => some (0x60, p)
  | .watchOff p => some (0x61, p)
  | .remnantTrayEmptied p => some (0x70, p)
  | .rejectBinEmptied p => some (0x71, p)
  | .restart p => some (0x7E, p)
  | .configLoad p => some (0x7F, p)
  | .unknownCommand code p => some (code, p)
  | _ => none

/-- R197: the bytes the CNC clocks for a command of the port; while it reads a response it clocks zeros. -/
def portFrame (i : Instr) : Option (List Byte) :=
  match i with
  | .readResponse bytes => some (0x01 :: 0 :: List.replicate (bytes - 2) 0)
  | i => (portBody i).map fun b => b.1 :: BitVec.ofNat 8 b.2.length :: b.2

/-! ## Frames of the aisle line (R73, R78, R222, section 12.1) -/

/-- Two payload bytes as a 16-bit word. -/
def word16 (hi lo : Byte) : Word16 := hi ++ lo

/-- R78: a sender that is a station. -/
def fromStation (a : LineAddr) : Bool := a != 0 && a != 63

/-- R222: the command of a class 0 payload. -/
def class0Command (a : LineAddr) : List Byte → Option Instr
  | kind :: rest =>
    match kind.toNat, rest with
    | 1, p :: m :: h :: l :: _ => some (.drop a p m (word16 h l))
    | 2, p :: _ => some (.release a p)
    | _, _ => none
  | [] => none

/-- R222: the command of a class 3 payload from the shuttle. -/
def class3Command : List Byte → Option Instr
  | kind :: rest =>
    match kind.toNat, rest with
    | 1, _ => some .shuttleIdle
    | 2, st :: t :: h :: l :: _ => some (.shuttleBusy st t (word16 h l))
    | 3, st :: t :: _ => some (.shuttleDelivered st t)
    | 4, k :: st :: _ => some (.shuttleFault k st)
    | _, _ => none
  | [] => none

/-- R222: the command of a class 4 payload. -/
def class4Command (a : LineAddr) : List Byte → Option Instr
  | sum :: ds :: n :: status :: rest =>
    if status.getLsbD 7 then
      match rest with
      | band :: t :: h :: l :: _ => some (.presence a sum ds n status band t (word16 h l))
      | _ => none
    else some (.presence a sum ds n status 0 0 0)
  | _ => none

/-- R222: the command of a good frame with an owner. -/
def ownedCommand (f : Frame) : Option Instr :=
  let a := f.sender
  match f.cls.toNat with
  | 0 => if fromStation a then class0Command a f.payload else none
  | 1 =>
    if fromStation a then
      match f.payload with
      | p :: _ => some (.claim a p)
      | [] => none
    else none
  | 2 =>
    if fromStation a then
      match f.payload with
      | b :: t :: h :: l :: _ => some (.dispatch a b t (word16 h l))
      | _ => none
    else none
  | 3 => if a = 63 then class3Command f.payload else none
  | 4 => if fromStation a then class4Command a f.payload else none
  | _ => none

/-- R78, R222: the command of a good frame that the station has not itself sent to completion. -/
def telegramCommand (f : Frame) : Instr := (ownedCommand f).getD (.goodFrameNoOwner f.cls f.sender f.payload)

/-- Section 12.1: the high byte of a word. -/
def hiByte (w : Word16) : Byte := w.extractLsb' 8 8

/-- Section 12.1: the low byte of a word. -/
def loByte (w : Word16) : Byte := w.extractLsb' 0 8

/-- Section 12.1: a frame of a class, a key value and a sender. -/
def frameOf (cls key : Nat) (a : LineAddr) (payload : List Byte) : Frame :=
  { value := BitVec.ofNat 16 (arbitration cls key a.toNat), payload := payload }

/-- Section 12.1, R222: the frame that carries a telegram, with exactly the length of the table. The key of a CLAIM is the
arrival distance at its sender, which the command does not hold: it is given. -/
def telegramFrame (key : Nat) : Instr → Option Frame
  | .claim a p => some (frameOf 1 key a [p])
  | .drop a p m n => some (frameOf 0 0 a [1, p, m, hiByte n, loByte n])
  | .release a p => some (frameOf 0 0 a [2, p])
  | .dispatch a b t w => some (frameOf 2 b.toNat a [b, t, hiByte w, loByte w])
  | .presence a sum ds n status b t w =>
    some (frameOf 4 0 a ([sum, ds, n, status] ++ if status.getLsbD 7 then [b, t, hiByte w, loByte w] else []))
  | .shuttleIdle => some (frameOf 3 key 63 [1])
  | .shuttleBusy st t w => some (frameOf 3 key 63 [2, st, t, hiByte w, loByte w])
  | .shuttleDelivered st t => some (frameOf 3 key 63 [3, st, t])
  | .shuttleFault k st => some (frameOf 3 key 63 [4, k, st])
  | _ => none

end Sys2Proof
end

