-- ==== Sys2Proof/Machine/Queue.lean ====
section
/-! DEFINITION. The transmit queue of the aisle line controller (section 4.8): requests, the order of the entries, removal by
an owner, the values and payloads of the telegrams the station sends. -/
namespace Sys2Proof.Machine

/-! ## Positions on the belt (section 6.1) -/

/-- Section 6.1: the arrival distance (p − B − Ds) mod N. -/
def arrivalOf (n ds b p : Nat) : Nat := (((p : Int) - b - ds) % (n : Int)).toNat

/-- Section 6.4: B, where it is present. -/
def Sync.b? : Sync → Option Nat
  | .unsynced => none
  | .filling b _ => some b
  | .synced b => some b

/-- R117: the arrival distance of a pocket, or "no position". -/
def State.arrival (s : State) (p : Nat) : Option Nat :=
  s.blt.sync.b?.map fun b => arrivalOf s.cfg.pockets s.cfg.dropDist b p

/-- R117, R131: the entry of a pocket; a pocket beyond the map reads as UNKNOWN. -/
def State.entryAt (s : State) (p : Nat) : Entry := (s.blt.map[p]?).getD .unknown

/-! ## What the station sends (R73, R222, section 12.1) -/

/-- R73: the arbitration value a telegram has now: class, key and own address. -/
def State.valueOf (s : State) : TxKind → Nat
  | .drop .. | .release _ => arbitration 0 0 s.own
  | .claim p => arbitration 1 ((s.arrival p).getD 0) s.own
  | .dispatch => arbitration 2 (s.sfc.need.escBand.getD 0) s.own
  | .presence => arbitration 4 0 s.own

/-- R94, section 12.1: the PRESENCE payload as the state stands. -/
def State.presencePayload (s : State) : List Byte :=
  let need := s.sfc.need
  byteOf s.summaryNow.code ++ byteOf s.cfg.dropDist ++ byteOf s.cfg.pockets ++
    byteOf (s.holdFill + (if s.pressed then 16 else 0) + (if need.active then 128 else 0)) ++
    (if need.active then
      byteOf (need.baseBand.getD 0) ++ byteOf (need.barType.getD 0) ++ beBytes 2 s.cfg.trip
    else [])

/-- Section 12.1: the payload a telegram has now; R87, R101: PRESENCE and DISPATCH are formed at revalidation. -/
def State.payloadOf (s : State) : TxKind → List Byte
  | .drop p m n => byteOf 1 ++ byteOf p ++ byteOf m.code ++ beBytes 2 n.toNat
  | .release p => byteOf 2 ++ byteOf p
  | .claim p => byteOf p
  | .dispatch => byteOf (s.sfc.need.escBand.getD 0) ++ byteOf (s.sfc.need.barType.getD 0) ++ beBytes 2 s.cfg.trip
  | .presence => s.presencePayload

/-! ## Requests (R86, R87) -/

/-- R86: ascending by value, behind the entries of equal value. -/
def insertEntry (e : TxEntry) : List TxEntry → List TxEntry
  | [] => [e]
  | x :: xs => if e.value < x.value then e :: x :: xs else x :: insertEntry e xs

/-- Section 4.7: requests are accepted in this line state. -/
def LineState.accepts : LineState → Bool
  | .listening | .active | .withdrawn => true
  | .off | .quiet => false

/-- R86: a request of this kind would be accepted now. -/
def State.accepts (s : State) : Bool := s.alc.st.accepts && s.alc.queue.length < Config.queueCapacity

/-- R87: a request joins the queued entry of its kind. -/
def TxEntry.join (e : TxEntry) : TxEntry := if e.inFlight then { e with again := true } else { e with fails := 0 }

/-- R86, R87: a new request, placed by its value; a PRESENCE or DISPATCH joins the one that is queued. A refused request
changes nothing. -/
def State.request (s : State) (k : TxKind) : State :=
  let joins := (k == .presence || k == .dispatch) && s.alc.queue.any (·.kind == k)
  if s.alc.st.accepts && joins then
    s.onAlc fun a => { a with queue := a.queue.map fun e => if e.kind == k then e.join else e }
  else if s.accepts then
    let payload := if k == .presence || k == .dispatch then [] else s.payloadOf k
    let e : TxEntry :=
      { kind := k, value := s.valueOf k, payload := payload, fails := 0, again := false, inFlight := false,
        leaving := false }
    s.onAlc fun a => { a with queue := insertEntry e a.queue }
  else s

/-! ## Removal (R89) -/

/-- The queued entry of a kind is in flight. -/
def State.inFlight (s : State) (k : TxKind) : Bool := s.alc.queue.any fun e => e.kind == k && e.inFlight

/-- R89: the owner removes its entry: at once, or at the end of its attempt where it is in flight. -/
def State.removeTx (s : State) (k : TxKind) : State :=
  s.onAlc fun a => { a with queue :=
    (a.queue.filter fun e => e.kind != k || e.inFlight).map fun e => if e.kind == k then { e with leaving := true } else e }

/-- The entry whose frame is on the line. -/
def Alc.flying (a : Alc) : Option TxEntry := a.queue.find? (·.inFlight)

/-- The queue without the entry in flight. -/
def Alc.land (a : Alc) : Alc := { a with queue := a.queue.filter fun e => !e.inFlight }

/-- R70, R73: the frame of an entry. -/
def TxEntry.frame (e : TxEntry) : Frame := { value := BitVec.ofNat 16 e.value, payload := e.payload }

/-- R74, R75: the station stops driving its frame. -/
def Alc.release (a : Alc) : Alc := { a with unit := { a.unit with tx := [] } }

/-- R75: the station stops driving its frame, and reads what is left of it without objecting to it or taking it as
unreadable. -/
def LineUnit.abandon (u : LineUnit) : LineUnit :=
  { u with
    tx := []
    rx := match u.rx with
      | .reading bits _ => .reading bits .abandoned
      | .free seen => .free seen
      | .passing left _ => .passing left .abandoned }

/-- R74: the start bit and the arbitration field lie within these bits of a frame. -/
def arbitrated (bits : List Bool) : Bool := 17 ≤ (placeOf bits).count

/-- R72, R90: the station's frame is cut off: it stops driving. With no bit driven yet there is no frame; in the arbitration a
rival's frame may go on in its place; what is left after it is that of a frame cut short. -/
def LineUnit.cutOff (u : LineUnit) : LineUnit :=
  { u with
    tx := []
    rx := match u.rx with
      | .reading [] _ => .free true
      | .reading (b :: bits) _ => .reading (b :: bits) (if arbitrated (b :: bits) then .abandoned else .cutOff)
      | .free seen => .free seen
      | .passing left _ => .passing left .abandoned }

/-- R67, R82: the level of ALN_TX, `true` for recessive. In OFF it is recessive. -/
def Alc.alnTx (a : Alc) : Bool := a.st == .off || a.unit.tx.headD true

/-- R87: an attempt has ended and the entry stays, its marks cleared and its count as given. That one with both the send-again and
the removed mark stays is the model's choice (DESIGN CHOICE, assumption log 13). -/
def Alc.keep (a : Alc) (fails : Nat) : Alc :=
  { a with queue := a.queue.map fun e =>
      if e.inFlight then { e with inFlight := false, again := false, leaving := false, fails := fails } else e }

end Sys2Proof.Machine
end

