-- ==== Sys2Proof/Machine/Forecast.lean ====
section
/-! DEFINITION. The stock forecast: cycle average, stock in hand, time to starvation, bands, need and starve condition, and what
a need change does to the dispatch state (chapter 3, R93, R100). -/
namespace Sys2Proof.Machine

/-! ## The cycle average (R51 to R54) -/

/-- R51: the reported average Ta. -/
def Sfc.ta (f : Sfc) : Nat := (f.ta8 + 4) / 8

/-- clamp of the Units section. -/
def clampNat (x lo hi : Nat) : Nat := if x < lo then lo else if hi < x then hi else x

/-- clamp of the Units section, for a signed value. -/
def clampInt (x lo hi : Int) : Int := if x < lo then lo else if hi < x then hi else x

/-- R54: the average after an offered interval. -/
def offerInterval (ta8 i tn : Nat) : Nat := if 8 * tn < i then ta8 else ta8 + clampNat i (tn / 4) (4 * tn) - ta8 / 8

/-- R53: the interval ending at this cut is offered. -/
def Sfc.offered (f : Sfc) (first : Bool) : Option Nat := if f.unused || first then none else f.cutClock

/-- R52 to R54: what SFC does at an accounted cut, before the recomputation. -/
def Sfc.cut (f : Sfc) (job : Option Job) (first : Bool) : Sfc :=
  { f with
    ta8 := match f.offered first, job with
      | some i, some j => offerInterval f.ta8 i j.tn
      | _, _ => f.ta8
    cutClock := some 0, cutSub := 0, unused := false }

/-! ## Stock, time, bands (R55 to R60) -/

/-- R55: the nominal parts per waiting bar of length L. -/
def partsPerBar (j : Job) (len : Nat) : Nat := if j.lt + j.lg + j.c ≤ len then (len - j.lt - j.lg) / j.c else 0

/-- R56: the waiting bars counted. -/
def State.countedBars (s : State) : Nat :=
  (s.bac.rack ++ s.bac.enRoute.toList).countP fun b => !b.wrongType

/-- Saturation in 32 bits unsigned (Units section). -/
def sat32 (x : Nat) : Nat := min x 4294967295

/-- R57: the time to starvation in seconds. -/
def starvation (stock ta k tc : Nat) : Nat := min 65535 (sat32 (sat32 (stock * ta) + sat32 (k * tc)) / 100)

/-- R58: the band of a slack: how many of the bounds 8, 16, ..., 32,768 it reaches. -/
def bandOf (slack : Int) : Nat := (List.range 13).countP fun b => (2 ^ (b + 3) : Int) ≤ slack

/-- R59: a peer is ahead of a station at this address with this base band. -/
def Peer.ahead (p : Peer) (own band : Nat) : Bool :=
  match p.need with
  | some n => n.band < band || (n.band == band && p.addr < own)
  | none => false

/-- R59: the shuttle's work in hand. -/
def Psr.work (p : Psr) : Nat :=
  match p.shuttle with
  | .busy _ _ remaining => remaining
  | .absent | .idle | .fault _ _ => 0

/-- R59: what one peer ahead adds. -/
def Peer.round (p : Peer) : Nat :=
  match p.need with
  | some n => 2 * n.trip
  | none => 0

/-- R59: the queue-ahead. -/
def State.queueAhead (s : State) (band : Nat) : Nat :=
  min 65535 (s.psr.work + ((s.psr.peers.filter fun p => p.ahead s.own band).map Peer.round).sum)

/-- R56 to R60: the forecast values under a job. -/
def State.forecastOf (s : State) (j : Job) : Forecast :=
  let k := s.countedBars
  let stock := s.np + partsPerBar j (s.typeLength j.barType) * k
  let rest := j.quantity - s.mpt.lotCount
  let usable := min stock rest
  let starveS := starvation usable s.sfc.ta k s.cfg.tc
  let baseSlack : Int := (starveS : Int) - s.cfg.trip
  let baseBand := bandOf baseSlack
  let qAhead := s.queueAhead baseBand
  let escSlack : Int := baseSlack - qAhead
  { k := k, stock := stock, rest := rest, usable := usable, starveS := starveS, baseSlack := baseSlack,
    baseBand := baseBand, qAhead := qAhead, escSlack := escSlack, escBand := bandOf escSlack }

/-! ## Need, starve condition (R61 to R64) -/

/-- R61: the need is active under a job and these forecast values. -/
def State.needActive (s : State) (j : Job) (v : Forecast) : Bool :=
  s.fsq.st != .lotDone && !s.holdDispatch && !s.inSafe && s.waitingBars < Config.rackCapacity &&
    (s.learnedOf j.barType).hold == 0 && (s.typeCfg j.barType).stock != .barred && v.stock < v.rest &&
    v.escBand ≤ s.cfg.horizon

/-- R62: the need record a recomputation writes. -/
def State.needNow (s : State) : Need :=
  match s.mpt.job with
  | none => { active := false, baseBand := none, escBand := none, barType := none, trip := none }
  | some j =>
    let v := s.forecastOf j
    { active := s.needActive j v, baseBand := some v.baseBand, escBand := some v.escBand, barType := some j.barType,
      trip := some s.cfg.trip }

/-- R62: the two records differ by a need change. -/
def Need.changed (a b : Need) : Bool := a.active != b.active || a.baseBand != b.baseBand || a.barType != b.barType

/-- R64: the starve condition a recomputation finds. -/
def State.starveNow (s : State) : Bool :=
  match s.mpt.job with
  | none => false
  | some j => (s.forecastOf j).escBand == 0 && s.bac.rack.isEmpty

/-- R100: WAITING where the need is active, NONE where it is not. -/
def State.restState (s : State) : DispatchState := if s.sfc.need.active then .waiting else .none

/-- R100: the dispatch state at a need change that turned the active mark. -/
def State.needTurned (s : State) : State :=
  match s.psr.dispatch with
  | .none | .waiting => s.onPsr fun p => { p with dispatch := s.restState }
  | .queued => if s.sfc.need.active then s else (s.removeTx .dispatch).onPsr fun p => { p with dispatch := .none }
  | .sent | .enRoute => s

/-- R63: the recomputation, with the need change of R62 and the event of R64. -/
def State.recompute (s : State) : State :=
  let before := s.sfc.need
  let values := s.mpt.job.map s.forecastOf
  let need := s.needNow
  let starve := s.starveNow
  let rises := starve && !s.sfc.starve
  let s := s.onSfc fun f => { f with values := values, need := need, starve := starve }
  let s := s.onlyIf rises fun s => s.raise .starveExpected
  let s := s.onlyIf (before.changed need) fun s => s.request .presence
  s.onlyIf (before.active != need.active) State.needTurned

end Sys2Proof.Machine
end

