-- ==== Sys2Proof/Machine/Claims.lean ====
section
/-! DEFINITION. The unload sequencer: part records, routing, the claim table, its reactions to the belt tracker and to the
telegrams that leave the transmit queue, the drop and its confirmation, selection (chapter 7). -/
namespace Sys2Proof.Machine

/-! ## Part records (R134 to R138) -/

/-- R134: the outcome the OUTCOME lines give. -/
def routedOf (a b : Bool) : Routed := if b then .reject else if a then .sample else .good

/-- R134: routing at an accounted cut with the captured OUTCOME levels. -/
def State.route (s : State) (cap : Bool × Bool) : State :=
  let sampled := !s.rejectAll && s.sampleNext
  let o := if s.rejectAll then .reject else if s.sampleNext then .sample else routedOf cap.1 cap.2
  let r : Route :=
    { outcome := o, lot := s.mpt.lotNo, origin := s.bac.current.map (·.origin), stamp := s.uns.seconds }
  let s := s.onlyIf sampled fun s => s.onMpt fun m => { m with flags := setBit m.flags 4 false }
  let s := s.onSig fun g => { g with trayLatch := false, binLatch := false }
  s.onUns fun u => { u with divert := o == .reject, catching := some (r, s.cfg.catchMs) }

/-- R136: a record joins the hold queue at the tail with the next sequence number. -/
def Uns.addRecord (u : Uns) (lot : Option Word16) (o : Outcome) (stamp : Word32) (origin : Option Origin) : Uns :=
  { u with
    hold := u.hold ++ [{ seq := u.seq, lot := lot, outcome := o, stamp := stamp, origin := origin, dropped := false }]
    seq := u.seq + 1, caught := u.caught + 1 }

/-- R138: the record of this sequence number leaves and raises the dropped total. -/
def Uns.recordLeaves (u : Uns) (seq : Word16) : Uns :=
  if u.hold.any (·.seq == seq) then
    { u with hold := u.hold.eraseP (·.seq == seq), dropped := u.dropped + 1 }
  else u

/-- R151: the dropped mark of a record. -/
def Uns.markDropped (u : Uns) (seq : Word16) : Uns :=
  { u with hold := u.hold.map fun r => if r.seq == seq then { r with dropped := true } else r }

/-- R135: the record outcome of a part seen at the tray entry. -/
def Routed.inTray : Routed → Outcome
  | .good => .good | .sample => .sample | .reject => .unknown

/-- R141: the sequence number is bound to a DROPPING or CLOSING entry. -/
def Uns.isBound (u : Uns) (seq : Word16) : Bool := u.closing.any (·.bound == some seq)

/-- R141: the free records. -/
def Uns.free (u : Uns) : List PartRec := u.hold.filter fun r => !r.dropped && !u.isBound r.seq

/-- R137: the conditions of a found record. -/
def State.foundDue (s : State) : Bool :=
  s.running && s.inp .trayBottom && s.uns.free.isEmpty && s.uns.catching.isNone && s.uns.confirm.isNone &&
    s.fsq.st != .feeding && s.fsq.st != .cutting && s.holdFill < Config.holdCapacity

/-- R137: the found record. -/
def State.foundPart (s : State) : State := s.onUns fun u => u.addRecord none .unknown u.seconds none

/-! ## The claim table (R141, R142) -/

/-- R141: an active claim in ascending order of arrival distance. -/
def State.insertClaim (s : State) (c : ActiveClaim) : List ActiveClaim → List ActiveClaim
  | [] => [c]
  | x :: xs =>
    if (s.arrival c.pocket).getD 0 < (s.arrival x.pocket).getD 0 then c :: x :: xs else x :: s.insertClaim c xs

/-- An entry names the pocket. -/
def Uns.names (u : Uns) (p : Nat) : Bool := u.closing.any (·.pocket == p) || u.active.any (·.pocket == p)

/-- The active claim of this pocket leaves the table. -/
def Uns.dropActive (u : Uns) (p : Nat) : Uns := { u with active := u.active.filter (·.pocket != p) }

/-- The CLOSING or DROPPING entry of this pocket leaves the table. -/
def Uns.dropClosing (u : Uns) (p : Nat) : Uns := { u with closing := u.closing.filter (·.pocket != p) }

/-- The stage of the active claim on a pocket. -/
def Uns.stageOf (u : Uns) (p : Nat) : Option ClaimStage := (u.active.find? (·.pocket == p)).map (·.stage)

/-- The stage of the DROPPING or CLOSING entry on a pocket. -/
def Uns.closeStageOf (u : Uns) (p : Nat) : Option CloseStage := (u.closing.find? (·.pocket == p)).map (·.stage)

/-- The DROPPING or CLOSING entry of a pocket gets this stage. -/
def Uns.setClosing (u : Uns) (p : Nat) (st : CloseStage) (bound : Option Word16) : Uns :=
  { u with closing := u.closing.map fun c => if c.pocket == p then { c with stage := st, bound := bound } else c }

/-- R152: the entry awaiting its own DROP is over: the bound record leaves with it. -/
def Uns.dropOver (u : Uns) (p : Nat) : Uns :=
  match u.closing.find? (·.pocket == p) with
  | some c =>
    let u := match c.bound with
      | some n => u.recordLeaves n
      | none => u
    u.dropClosing p
  | none => u

/-- R152: the DROP the entry of this pocket awaits is asked for; refused, it has left at once. -/
def State.askDrop (s : State) (p : Nat) (m : Mark) (seq : Word16) : State :=
  if s.accepts then
    (s.request (.drop p m seq)).onUns fun u => u.setClosing p .awaitDrop (some seq)
  else s.onUns fun u => u.dropOver p

/-- R152: the RELEASE the entry of this pocket awaits is asked for; refused, it has left at once. -/
def State.askRelease (s : State) (p : Nat) : State :=
  if s.accepts then (s.request (.release p)).onUns fun u => u.setClosing p .awaitRelease none
  else s.onUns fun u => u.dropClosing p

/-- R150, R155: the active claim of this pocket becomes CLOSING awaiting its RELEASE. -/
def State.releaseActive (s : State) (p : Nat) : State :=
  let s := s.onUns fun u =>
    { u.dropActive p with closing := u.closing ++ [{ pocket := p, stage := .awaitRelease, bound := none }] }
  s.askRelease p

/-! ## What the belt tracker reports (R146, R147, R153, R156) -/

/-- R146: a QUEUED claim ends; with its CLAIM in flight it stays until the attempt ends. -/
def State.endQueued (s : State) (p : Nat) : State :=
  let s' := s.removeTx (.claim p)
  if s.inFlight (.claim p) then s' else s'.onUns fun u => u.dropActive p

/-- R127: the report of a changed pocket entry, as it touches the claims. A DROPPING entry that becomes CLOSING by a rival DROP
leaves GATE driven for the rest of its gate time or until the next advance, which R150 leaves open (DESIGN CHOICE, assumption
log 12). -/
def State.reportEntry (s : State) (p : Nat) (e : Entry) : State :=
  match e with
  | .unknown => s
  | .free =>
    match s.uns.stageOf p with
    | some .held | some .armed => s.onUns fun u => u.dropActive p
    | some .queued | none => s
  | .claimed owner =>
    if owner = s.own then s
    else if s.uns.stageOf p = some .queued then s.endQueued p
    else s
  | .loaded owner _ _ =>
    match s.uns.stageOf p with
    | some .queued => s.endQueued p
    | some .held | some .armed => if owner = s.own then s else s.onUns fun u => u.dropActive p
    | none =>
      if owner ≠ s.own ∧ s.uns.closeStageOf p = some .dropping then
        s.onUns fun u => { u with closing := u.closing.map fun c =>
          if c.pocket == p then { c with stage := .awaitConfirm } else c }
      else s

/-- R89, R156: the report of a resync: the CLAIM of every queued claim is removed, one in flight at the end of its attempt. GATE
stays driven for the rest of its gate time or until the next advance, which R150 leaves open (DESIGN CHOICE, assumption log
12). -/
def State.reportResync (s : State) : State :=
  let queued := s.uns.active.filter (·.stage == .queued)
  let flying := queued.filter fun c => s.inFlight (.claim c.pocket)
  let s := queued.foldl (fun s c => s.removeTx (.claim c.pocket)) s
  s.onUns fun u => { u with
    active := []
    closing := u.closing.map (fun c => if c.stage == .dropping then { c with stage := .awaitConfirm } else c) ++
      flying.map fun c => { pocket := c.pocket, stage := .awaitClaim, bound := none } }

/-! ## Telegrams that leave the queue (R146, R147, R152) -/

/-- R89, R146, R152: an own telegram of classes 0 and 1 has left the queue without completing. -/
def State.unsent (s : State) (k : TxKind) : State :=
  match k with
  | .claim p =>
    let s := s.onlyIf (s.uns.stageOf p == some .queued) fun s => s.onUns fun u => u.dropActive p
    s.onlyIf (s.uns.closeStageOf p == some .awaitClaim) fun s => s.onUns fun u => u.dropClosing p
  | .drop p _ _ => s.onlyIf (s.uns.closeStageOf p == some .awaitDrop) fun s => s.onUns fun u => u.dropOver p
  | .release p => s.onlyIf (s.uns.closeStageOf p == some .awaitRelease) fun s => s.onUns fun u => u.dropClosing p
  | .dispatch | .presence => s

/-- R147: the own CLAIM has completed. -/
def State.claimSent (s : State) (p : Nat) : State :=
  let s := s.onUns fun u => { u with active := u.active.map fun c =>
    if c.pocket == p && c.stage == .queued then { c with stage := .held } else c }
  s.onlyIf (s.uns.closeStageOf p == some .awaitClaim) fun s => s.onUns fun u => u.dropClosing p

/-! ## Arming, arrival, confirmation (R148 to R151) -/

/-- R149: the stage of the `i`-th active claim, checked afresh where its pocket stands at a = 1. -/
def State.armedStage (s : State) (i : Nat) (c : ActiveClaim) : ActiveClaim :=
  if c.stage == .queued || s.arrival c.pocket != some 1 then c
  else { c with stage := if i < s.uns.free.length && s.inp .trayBottom then .armed else .held }

/-- R149: the check for arming. -/
def State.rearm (s : State) : State := s.onUns fun u => { u with active := u.active.mapIdx s.armedStage }

/-- R150: the arrival of the `i`-th active claim at the drop point. -/
def State.arrive (s : State) (i : Nat) (c : ActiveClaim) : State :=
  match c.stage with
  | .queued => s
  | .armed | .held =>
    match c.stage, s.uns.free[i]?, s.flt.unloadPaused.isNone && !s.inSafe with
    | .armed, some r, true =>
      s.onUns fun u => { u.dropActive c.pocket with
        closing := u.closing ++ [{ pocket := c.pocket, stage := .dropping, bound := some r.seq }]
        gate := some s.cfg.gateMs
        confirm := some (s.cfg.gateMs + Config.confirmExtraMs) }
    | _, some _, _ => (s.notice .partMissing (some c.pocket)).releaseActive c.pocket
    | _, none, _ => s.releaseActive c.pocket

/-- R148, step 5: the claim whose pocket stands at a = 0 arrives. -/
def State.arrivals (s : State) : State :=
  match s.uns.active.findIdx? fun c => s.arrival c.pocket == some 0 with
  | some i =>
    match s.uns.active[i]? with
    | some c => s.arrive i c
    | none => s
  | none => s

/-- The entry whose drop confirmation runs. -/
def Uns.confirming (u : Uns) : Option ClosingClaim :=
  u.closing.find? fun c => c.stage == .dropping || c.stage == .awaitConfirm

/-- R151: the record of a sequence number. -/
def Uns.record (u : Uns) (seq : Word16) : Option PartRec := u.hold.find? (·.seq == seq)

/-- R151: the drop confirmation ends. The entry leaves DROPPING here, and the gate stays driven for the rest of its gate time or
until the next advance: R150 removes GATE at those times and says too that only a DROPPING entry drives it, and which of the two
holds once the entry has left DROPPING it leaves open (DESIGN CHOICE, assumption log 12). -/
def State.endConfirm (s : State) (seen : Bool) : State :=
  let s := s.onUns fun u => { u with confirm := none }
  match s.uns.confirming with
  | none => s
  | some c =>
    let seq := c.bound.getD 0
    if seen then
      let m := match s.uns.record seq with
        | some r => r.outcome.mark
        | none => .unverified
      (s.onUns fun u => u.markDropped seq).askDrop c.pocket m seq
    else if s.inp .trayBottom then
      ((s.onUns fun u => u.setClosing c.pocket c.stage none).askRelease c.pocket).stepUnload c.pocket .partInTray
    else
      ((s.onUns fun u => u.markDropped seq).askDrop c.pocket .unverified seq).stepUnload c.pocket .trayEmpty

/-! ## Selection (R142 to R145) -/

/-- R142: the table has room for one more entry. -/
def State.claimRoom (s : State) : Bool :=
  let n := s.uns.closing.length + s.uns.active.length + 1
  n ≤ Config.claimCapacity && n ≤ s.holdFill + (if s.fsq.st == .cutting then 1 else 0)

/-- R145: the yield rule applies. -/
def State.yieldApplies (s : State) : Bool :=
  (s.psr.peers.any fun p => p.pressed && p.ds < s.cfg.dropDist) && !s.pressed

/-- R143: a claim may be added. -/
def State.mayClaim (s : State) : Bool :=
  (match s.blt.sync with
    | .synced _ => true
    | .unsynced | .filling _ _ => false) &&
  !s.holdClaims && !s.inSafe && s.alc.st == .active && !s.blt.mismatch && s.flt.unloadPaused.isNone && s.claimRoom &&
  (!s.yieldApplies || s.uns.yield == 0)

/-- The pocket at an arrival distance. -/
def State.pocketAt (s : State) (a : Nat) : Nat := ((s.blt.sync.b?.getD 0) + s.cfg.dropDist + a) % s.cfg.pockets

/-- R144: the pocket chosen: the nearest within Lmin to Lmax that the map shows FREE and no entry names. -/
def State.choosePocket (s : State) : Option Nat :=
  ((List.range' s.cfg.lmin (s.cfg.lmax + 1 - s.cfg.lmin)).map s.pocketAt).find? fun p =>
    s.entryAt p == .free && !s.uns.names p

/-- R144: one claim is added and its CLAIM asked for. A refused request takes the entry away again; R145 sets the counter. -/
def State.addClaim (s : State) (p : Nat) : State :=
  if s.accepts then
    let active := s.insertClaim { pocket := p, stage := .queued } s.uns.active
    (s.request (.claim p)).onUns fun u => { u with active := active, yield := s.cfg.spacing }
  else s

/-- R144: a selection attempt; the table holds at most 4 entries, so 4 rounds are enough. -/
def State.select : Nat → State → State
  | 0, s => s
  | n + 1, s =>
    if s.mayClaim then
      match s.choosePocket with
      | some p => State.select n (s.addClaim p)
      | none => s
    else s

/-- R148: what UNS does at an advance the belt tracker reports. -/
def State.unsAdvance (s : State) : State :=
  let s := s.onUns fun u => { u with yield := u.yield - 1 }
  let s := s.onlyIf s.uns.confirm.isSome fun s => s.endConfirm false
  let s := s.onUns fun u => { u with gate := none }
  let short := s.uns.active.filter fun c => c.stage == .queued && (s.arrival c.pocket).getD 0 < s.cfg.lmin
  let s := short.foldl (fun s c => s.endQueued c.pocket) s
  let s := s.rearm
  let s := s.arrivals
  s.select Config.claimCapacity

end Sys2Proof.Machine
end

