-- ==== Sys2Proof/Machine/Belt.lean ====
section
/-! DEFINITION. The belt tracker: the pairing of INDEX and HOME, the advance, the sync states, the pocket map and the telegrams
that act on it, the resync and the view-doubt that calls for it (chapter 6, R81). -/
namespace Sys2Proof.Machine

/-! ## The map (R116, R124 to R127) -/

/-- R127: the entry of a pocket is set, and a change is reported to the unload sequencer. -/
def State.setEntry (s : State) (p : Nat) (e : Entry) : State :=
  if s.entryAt p = e then s
  else (s.onBlt fun b => { b with map := b.map.set p e }).reportEntry p e

/-- R123: a telegram naming this pocket is not ignored. -/
def State.knows (s : State) (p : Nat) : Bool := p < s.cfg.pockets && s.entryAt p != .unknown

/-- R124: a CLAIM for pocket p from sender x. -/
def State.beltClaim (s : State) (p x : Nat) : State :=
  if s.knows p then
    match s.entryAt p with
    | .free => s.setEntry p (.claimed x)
    | .claimed owner => if owner = s.own ∧ x ≠ s.own then s.notice .claimConflict (some p) else s
    | .loaded .. | .unknown => s
  else s

/-- R123, R125: a DROP for pocket p from sender x with mark m and sequence number n. -/
def State.beltDrop (s : State) (p x : Nat) (m : Mark) (n : Word16) : State :=
  if s.knows p then
    let conflict := s.entryAt p = .claimed s.own ∧ x ≠ s.own
    let s := s.setEntry p (.loaded x m n)
    if conflict then s.notice .claimConflict (some p) else s
  else s

/-- R126: a RELEASE for pocket p from sender x. -/
def State.beltRelease (s : State) (p x : Nat) : State :=
  if s.knows p && s.entryAt p == .claimed x then s.setEntry p .free else s

/-! ## Resync (R81, R128, R129) -/

/-- R128: the resync. Pairing state, mismatch mark and view-doubt flag stay. -/
def State.resync (s : State) : State :=
  (s.onBlt fun b => { b with
    sync := .unsynced, map := List.replicate s.cfg.pockets .unknown, misses := 0 }).reportResync

/-- R81: the view-doubt flag is set, and the belt tracker told. -/
def State.viewDoubt (s : State) : State := (s.onAlc fun a => { a with doubt := true }).resync

/-! ## The advance (R116, R119) -/

/-- R119: entry to SYNCED. -/
def State.becomeSynced (s : State) (b : Nat) : State :=
  let s := s.onBlt fun t => { t with sync := .synced b }
  (s.onAlc fun a => { a with doubt := false }).raise .beltSynced

/-- R116: one advance of the belt, with the tip passage, the fill step and the report to UNS. -/
def State.advance (s : State) : State :=
  let n := s.cfg.pockets
  match s.blt.sync with
  | .unsynced => s
  | .filling b fill =>
    let b' := (b + 1) % n
    let s := s.onBlt fun t => { t with sync := .filling b' (fill + 1) }
    let s := s.setEntry b' .free
    let s := if n ≤ fill + 1 then s.becomeSynced b' else s
    s.unsAdvance
  | .synced b =>
    let b' := (b + 1) % n
    let s := s.onBlt fun t => { t with sync := .synced b' }
    (s.setEntry b' .free).unsAdvance

/-! ## HOME (R118, R120 to R122) -/

/-- R118: FILLING begins. -/
def State.beginFilling (s : State) : State := s.onBlt fun b => { b with sync := .filling 0 0 }

/-- R118, R120: a HOME paired with an advance. -/
def State.pairedHome (s : State) : State :=
  match s.blt.sync.b? with
  | none => s.beginFilling
  | some 0 => s.onBlt fun b => { b with misses := 0 }
  | some (_ + 1) => (s.notice .beltSyncLost none).resync.beginFilling

/-- R121: an advance that set B to 0 has closed its window without a HOME. -/
def State.homeMiss (s : State) : State :=
  let n := min 255 (s.blt.misses + 1)
  let s := s.onBlt fun b => { b with misses := n }
  s.onlyIf (n == 2) fun s => s.notice .beltSyncLost none

/-- R115, R121: the open advance window closes. -/
def State.closeWindow (s : State) : State :=
  match s.blt.advance with
  | none => s
  | some w =>
    let s := s.onBlt fun b => { b with advance := none }
    s.onlyIf (w.wrapped && !w.paired && s.blt.sync.b?.isSome) State.homeMiss

/-- R115, R116: an INDEX edge. -/
def State.takeIndex (s : State) : State :=
  let s := s.closeWindow
  let s := s.advance
  if s.blt.homeHeld.isSome then (s.onBlt fun b => { b with homeHeld := none }).pairedHome
  else
    let wrapped := s.blt.sync.b? == some 0
    s.onBlt fun b => { b with advance := some { left := Config.pairingMs, paired := false, wrapped := wrapped } }

/-- R115, R122: a HOME edge. -/
def State.takeHome (s : State) : State :=
  if s.blt.homeHeld.isSome then s.notice .beltSyncLost none
  else
    match s.blt.advance with
    | some w =>
      if w.paired then s.notice .beltSyncLost none
      else (s.onBlt fun b => { b with advance := some { w with paired := true } }).pairedHome
    | none => s.onBlt fun b => { b with homeHeld := some Config.pairingMs }

/-! ## Belt size (R130) -/

/-- R130: the mismatch mark is evaluated afresh. -/
def State.checkSizes (s : State) : State :=
  let now := s.psr.peers.any fun p => p.n != s.cfg.pockets
  let rises := now && !s.blt.mismatch
  let s := s.onBlt fun b => { b with mismatch := now }
  s.onlyIf rises fun s => s.notice .beltSizeMismatch none

end Sys2Proof.Machine
end

