-- ==== Sys2Proof/Machine/Safe.lean ====
section
/-! DEFINITION. The clear of the transmit queue with its owners told, the line states it belongs to, and SAFE entry with the
severe faults (R84, R85, R90, R102, R112, R155, R162, R166). -/
namespace Sys2Proof.Machine

/-! ## The clear (R90, R102) -/

/-- R102: the own DISPATCH has left the queue without completing. -/
def State.dispatchUnsent (s : State) : State :=
  s.onlyIf (s.psr.dispatch == .queued) fun s => s.onPsr fun p => { p with dispatch := s.restState }

/-- R79, R90, R102: an own telegram has left the queue without completing, and its owner is told. -/
def State.tellUnsent (s : State) (k : TxKind) : State := if k = .dispatch then s.dispatchUnsent else s.unsent k

/-- R90: the queue is emptied. An entry in flight is cut off: nothing is driven from the next bit boundary on. How what is left of
its frame is read is the model's choice (assumption log 30). -/
def State.emptyQueue (s : State) : State :=
  s.onAlc fun a => { a with queue := [], unit := if a.flying.isSome then a.unit.cutOff else a.unit }

/-- R90: the clear, with each owner told that its entry was removed unsent. -/
def State.clearQueue (s : State) : State := s.alc.queue.foldl (fun s e => s.tellUnsent e.kind) s.emptyQueue

/-- R84: entry to WITHDRAWN. -/
def State.withdraw (s : State) : State :=
  let s := s.onAlc fun a => { a with st := .withdrawn, timer := some Config.lineTimerMs, consecutive := 0 }
  (s.notice .lineWithdrawn none).clearQueue

/-- R85: an address clash: view-doubt at any time, and QUIET with its notice from the other line states. -/
def State.clash (s : State) : State :=
  let s := s.viewDoubt
  s.onlyIf (s.alc.st != .quiet) fun s =>
    let s := s.onAlc fun a => { a with st := .quiet, timer := none }
    (s.notice .addressClash none).clearQueue

/-! ## SAFE entry (R155, R162, R163, R166) -/

/-- R155: what SAFE entry makes of one DROPPING or CLOSING entry, after the clear. -/
def State.safeClosing (s : State) (c : ClosingClaim) : State :=
  match c.stage with
  | .dropping => s.onUns fun u => u.setClosing c.pocket .awaitConfirm c.bound
  | .awaitDrop => s.onUns fun u => u.dropOver c.pocket
  | .awaitRelease => s.askRelease c.pocket
  | .awaitClaim => s.onUns fun u => u.dropClosing c.pocket
  | .awaitConfirm => s

/-- R155: what SAFE entry makes of one active claim, after the clear. -/
def State.safeActive (s : State) (c : ActiveClaim) : State :=
  match c.stage with
  | .queued => s.onUns fun u => u.dropActive c.pocket
  | .held | .armed => s.releaseActive c.pocket

/-- R155: UNS at SAFE entry. That the entries awaiting something act before the active ones, which orders the RELEASEs asked for, is
the model's choice (assumption log 12). -/
def State.unsSafe (s : State) : State :=
  let active := s.uns.active
  let s := s.uns.closing.foldl State.safeClosing s
  active.foldl State.safeActive s

/-- R112, R114: the dispatch state at SAFE entry and at RESTART. -/
def State.endRound (s : State) : State :=
  match s.psr.dispatch with
  | .queued | .sent => s.onPsr fun p => { p with dispatch := s.restState, dispTimer := none }
  | .none | .waiting | .enRoute => s

/-- R112, R166: what the blocks do at SAFE entry; the PRESENCE is asked for after the clear and the RELEASEs. The forecast
recomputes when the command concludes. -/
def State.enterSafe (s : State) : State :=
  let s := s.emptyQueue.unsSafe.endRound.holdFeed.raise .safeEntered
  (s.onPsr fun p => { p with summary := .safe }).request .presence

/-- R163: the engine of a severe kind. -/
def FaultKind.severeEngine : FaultKind → Engine
  | .guardOpen => .station
  | .pusherStall | .colletNotOpen | .colletClosedInMotion | .feedDeviation | .barNotSeen | .wrongBar | .measureFail
  | .dropUnconfirmed | .gripShort | .overtravel | .homeFail | .partMissing | .shortBar | .barLengthOdd
  | .unexpectedCut | .dispatchMiss | .shuttleSilent | .deliveryMissing | .stockOut | .rackOverfill | .lineDiscard
  | .lineWithdrawn | .addressClash | .beltSyncLost | .beltSizeMismatch | .claimConflict => .feed

/-- R162: what FLT itself records of a severe fault. -/
def Flt.takeSevere (f : Flt) (k : FaultKind) (st : FeedState) (ctx : Option Nat) : Flt :=
  let c : Capture :=
    { kind := k, engine := k.severeEngine, state := .feed st, ctx := ctx, fromLevel := some f.level, active := true }
  match f.level with
  | .normal => { f with level := .safe, safe := some c, further := 0, furtherSet := 0 }
  | .alert => { f with level := .safe, safe := some c }
  | .safe => f.addFurther k

/-- R162: FLT takes a severe fault. -/
def State.severe (s : State) (k : FaultKind) (ctx : Option Nat) : State :=
  let entering := !s.inSafe
  let st := s.fsq.st
  let s := s.onFlt fun f => f.takeSevere k st ctx
  s.onlyIf entering State.enterSafe

end Sys2Proof.Machine
end

