-- ==== Sys2Proof/Machine/Pusher.lean ====
section
/-! DEFINITION. The feed engine: moves, the steps of its states, cut-off accounting, the end of a pause, RETRY and SKIP
(chapter 2, R6 to R18, R169, R170). -/
namespace Sys2Proof.Machine

/-! ## Entering a state -/

/-- The engine enters a state; its step begins when the engine is not held (R28). -/
def State.enter (s : State) (st : FeedState) : State :=
  (s.onSig fun g => { g with zeroArmed := false }).onFsq fun f =>
    { f with st := st, begun := false, retry := false, move := none, limit := none, trip := none }

/-- R44: READY, or LOT_DONE in its place with the lot already reached. `fresh` says that READY is reached from
POSITIONING or REMEASURE (R41). -/
def State.enterReady (s : State) (fresh : Bool) : State :=
  if s.lotReached then s.enter .lotDone
  else (s.enter .ready).onFsq fun f => { f with firstCut := f.firstCut || fresh }

/-- R43, R170: the way out of the bar-end path. -/
def State.enterEmpty (s : State) : State := s.enter (if s.lotReached then .lotDone else .noBar)

/-! ## Moves (R24, R25) -/

/-- The distance unit of R24 as a signed value. -/
def State.runOn (s : State) : Int := s.cfg.runOn

/-- R24: P has reached the stop point of the move. -/
def State.reached (s : State) (m : Move) : Bool :=
  match m.target, s.posn with
  | some t, some p =>
    match m.dir with
    | .fwd => t - s.runOn ≤ p
    | .rev => p ≤ t + s.runOn
  | _, _ => false

/-- R24: the ordinary speed rule. -/
def State.fastOrdinary (s : State) (m : Move) : Bool :=
  match m.target, s.posn with
  | some t, some p => (s.cfg.slowZone : Int) < (t - p).natAbs
  | _, _ => false

/-- R35: the speed rule of the measuring move. -/
def State.fastMeasure (s : State) : Bool :=
  match s.posn, s.bac.current.bind (·.barType) with
  | some p, some t =>
    let ln := (s.typeCfg t).nominal
    p < (s.cfg.xEntry : Int) - ln - (ln / 10 : Nat) - s.cfg.slowZone
  | _, _ => false

/-- R24, R29, R32, R35: the move drives PUSH_FAST at the present P. -/
def State.fastRule (s : State) (m : Move) : Bool :=
  match s.fsq.st, m.leg with
  | .homing, .main =>
    match s.posn with
    | some p => (s.cfg.slowZone : Int) < p
    | none => false
  | .homing, .start | .homing, .offSwitch | .homing, .homeward => false
  | .remeasure, .main =>
    match s.posn, s.fsq.pCut with
    | some p, some c => p < c - s.cfg.slowZone
    | _, _ => false
  | .measuring, .main => s.fastMeasure
  | _, _ => s.fastOrdinary m

/-- The move is set to this. -/
def State.setMove (s : State) (m : Move) : State := s.onFsq fun f => { f with move := some m }

/-- R24, R26: the drive outputs are applied for a move, or left off where its stop point is reached. -/
def State.apply (s : State) (m : Move) : State :=
  if s.reached m then s.setMove { m with phase := .coasting, fast := false }
  else
    let fast := s.fastRule m
    (s.setMove { m with phase := .driving, fast := fast }).onFsq fun f => { f with quiet := 0 }

/-- R29, R30: HOMING drives its part: off the switch forward while HOME_SW is active, toward it in reverse otherwise. The
home zero is armed for the reverse part (R186), and the homing limit runs while HOMING drives, afresh after a collet wait. That
HOME_SW is read here, when the drive is first applied, and not on entry to HOMING, is the model's choice (assumption log 21). -/
def State.driveHoming (s : State) (m : Move) : State :=
  let limit := s.fsq.limit.getD Config.homingLimitMs
  if m.leg != .main && s.inp .homeSw then
    if s.inp .fwdLimit then s.severe .overtravel none
    else (s.apply { m with leg := .offSwitch, dir := .fwd, target := none }).onFsq fun f => { f with limit := some limit }
  else
    let s := (s.apply { m with leg := .main, dir := .rev, target := none }).onFsq fun f => { f with limit := some limit }
    s.onSig fun g => { g with zeroArmed := true }

/-- R25, R30, R38: a move begins or continues: it waits for COLLET_OPEN, with a limit in FEEDING alone, or drives. -/
def State.drive (s : State) : State :=
  match s.fsq.move with
  | none => s
  | some m =>
    if !s.inp .colletOpen then
      (s.setMove { m with phase := .waiting, fast := false }).onFsq fun f =>
        { f with limit := if f.st = .feeding then some Config.colletLimitMs else none }
    else if s.fsq.st = .homing then s.driveHoming m
    else (s.apply m).onFsq fun f => { f with limit := if f.st = .feeding then none else f.limit }

/-- A new move of the present state. -/
def State.startMove (s : State) (leg : Leg) (dir : Dir) (target : Option Int) : State :=
  (s.setMove { leg := leg, dir := dir, target := target, phase := .waiting, fast := false, halted := false }).drive

/-- R24: a forward target, cut to P_max. -/
def State.forward (s : State) (t : Int) : Option Int := some (min t s.cfg.pMax)

/-- R24: the drive is taken off for good by a switch, a sensor or a contact; the move ends at settle. -/
def State.halt (s : State) : State :=
  s.onFsq fun f => { f with move := f.move.map fun m => { m with phase := .coasting, fast := false, halted := true } }

/-- The move is over. -/
def State.dropMove (s : State) : State := s.onFsq fun f => { f with move := none }

/-- The move drives the pusher, in this leg. -/
def State.driving (s : State) (leg : Leg) : Bool :=
  match s.fsq.move with
  | some m => m.phase == .driving && m.leg == leg
  | none => false

/-- The move is past its stop point and waits to settle. -/
def State.coasting (s : State) : Bool :=
  match s.fsq.move with
  | some m => m.phase == .coasting
  | none => false

/-! ## The steps of the states -/

/-- R8: the ready position of the current bar. -/
def State.readyPosition (s : State) : Option Int :=
  match s.mpt.job, s.bac.current.bind (·.length) with
  | some j, some lb => some ((s.cfg.xFace : Int) + j.lt - lb)
  | _, _ => none

/-- R35: MEASURING checks the spindle-entry sensor and starts its move. -/
def State.beginMeasure (s : State) : State :=
  if s.inp .spindleEntry then s.stepFeed .measureFail (some 0)
  else
    let s := s.onSig fun g => { g with spindleLatch := none }
    (s.onFsq fun f => { f with trip := none }).startMove .main .fwd (s.forward s.cfg.pMax)

/-- R15, R29 to R43: the step of the present state begins. The move of POSITIONING is a forward one whatever P is: where the
coast after the measurement has carried P to the ready position or beyond it, the stop point counts as reached and nothing is
driven; that is the model's choice (assumption log 19). -/
def State.beginStep (s : State) : State :=
  let s := s.onFsq fun f => { f with begun := true, retry := false }
  match s.fsq.st with
  | .homing => s.startMove .start .rev none
  | .remeasure => s.startMove .main .fwd (s.forward s.cfg.pMax)
  | .loading => s.onFsq fun f => { f with escape := some Config.pulseMs, limit := some Config.loadingLimitMs }
  | .measuring => s.beginMeasure
  | .positioning =>
    match s.readyPosition with
    | some t => s.startMove .main .fwd (s.forward t)
    | none => s
  | .feeding =>
    match s.fsq.target with
    | some t => s.startMove .main .fwd (s.forward t)
    | none => s
  | .barEnd => s.onlyIf (!s.trayRoom) fun s => s.raise .remnantTrayFull
  | .ejecting =>
    (s.onSig fun g => { g with remnantLatch := false }).onFsq fun f =>
      { f with eject := some Config.pulseMs, limit := some Config.remnantLimitMs }
  | .noJob | .noBar | .ready | .cutting | .lotDone => s

/-- R47: RETRY repeats the step of the present state. That the 'reverse move to home' of REMEASURE and MEASURING is a move of R24
to the target 0, and no drive to the home switch, is the model's choice (assumption log 19). -/
def State.retryStep (s : State) : State :=
  let s := s.onFsq fun f => { f with retry := false }
  match s.fsq.st with
  | .homing | .loading | .ejecting =>
    s.onFsq fun f => { f with begun := false, move := none, limit := none }
  | .remeasure | .measuring =>
    if s.fsq.begun then (s.onFsq fun f => { f with trip := none }).startMove .homeward .rev (some 0) else s
  | .barEnd => s.onlyIf s.fsq.move.isNone fun s => s.onFsq fun f => { f with begun := false }
  | .positioning | .feeding | .noBar | .ready | .cutting | .lotDone | .noJob => s

/-- R30: the state that follows HOMING. -/
def State.endHoming (s : State) : State :=
  if s.mpt.job.isNone then s.enter .noJob
  else if s.inp .channel then s.foundBar.enter .remeasure
  else s.removeCurrent.enter .noBar

/-- R10, R32, R41: bar end, the lot end or READY, from the parts available. -/
def State.enterByParts (s : State) (fresh : Bool) : State := if s.np = 0 then s.enter .barEnd else s.enterReady fresh

/-- R32: contact in REMEASURE. -/
def State.contact (s : State) : State :=
  let p := s.posn
  (s.onFsq fun f => { f with pCut := p }).enterByParts true

/-- R36: POSITIONING is over. -/
def State.positioned (s : State) : State :=
  let p := s.readyPosition
  (s.onFsq fun f => { f with pCut := p }).enterReady true

/-- R18: the learned entry after a bar of this length has been learned. -/
def Learned.learn (l : Learned) (lb : Nat) : Learned :=
  { l with la4 := if l.count = 0 then 4 * lb else l.la4 + lb - l.la4 / 4, count := min 255 (l.count + 1) }

/-- R18: the band check. -/
def inBand (lb ln : Nat) : Bool := ((lb : Int) - ln).natAbs ≤ ln / 10

/-- R18: the band check of the measured current bar, and the learning. -/
def State.bandCheck (s : State) (c : BarRec) (lb : Nat) : State :=
  match c.barType with
  | none => s
  | some t =>
    if inBand lb (s.typeCfg t).nominal then
      s.onlyIf (c.verified && !c.wrongType && !(s.typeCfg t).locked) fun s =>
        s.onBac fun b => { b with learned := setType b.learned t ((s.learnedOf t).learn lb) }
    else s.notice .barLengthOdd (some 0)

/-- R7: the bar of this length is short under the present job. -/
def State.short (s : State) (lb : Nat) : Bool :=
  match s.mpt.job with
  | some j => (lb : Int) - j.lt < j.lg + j.c
  | none => false

/-- R6: the measured length from the trip position. -/
def State.tripLength (s : State) (trip : Int) : Int := (s.cfg.xEntry : Int) - trip

/-- R6, R7, R18, R35: MEASURING has settled with the trip position taken. -/
def State.measured (s : State) (trip : Int) : State :=
  let lb := s.tripLength trip
  match s.bac.current with
  | some c =>
    if 5000 ≤ lb ∧ lb ≤ 400000 then
      let n := lb.toNat
      let s := s.onBac fun b => { b with current := some { c with length := some n } }
      let short := s.short n
      let s := s.onlyIf short fun s => s.notice .shortBar (some 0)
      (s.bandCheck c n).enter (if short then .barEnd else .positioning)
    else s.dropMove.stepFeed .measureFail (some 0)
  | none => s.dropMove.stepFeed .measureFail (some 0)

/-- R29 to R43: the move has settled, and the step of its state follows. -/
def State.endMove (s : State) (m : Move) : State :=
  match s.fsq.st, m.leg with
  | .homing, _ => s.endHoming
  | .remeasure, .homeward => s.startMove .main .fwd (s.forward s.cfg.pMax)
  | .remeasure, _ => if m.halted then s.contact else s.dropMove.stepFeed .measureFail (some 0)
  | .measuring, .homeward => s.dropMove.beginMeasure
  | .measuring, _ =>
    match s.fsq.trip with
    | some t => s.measured t
    | none => s.dropMove.stepFeed .measureFail (some 0)
  | .positioning, _ => s.positioned
  | .feeding, _ => s.dropMove.onFsq fun f => { f with feedDone := true, limit := none }
  | .barEnd, _ => s.enter .ejecting
  | .noJob, _ | .noBar, _ | .loading, _ | .ready, _ | .cutting, _ | .ejecting, _ | .lotDone, _ => s.dropMove

/-- R5, R34: the rack head becomes the current bar. The record it finds there is that of a FOUND bar, made in NO_BAR at a late
first level of CHANNEL, whose bar has left the channel since. The spec gives such a record no fate; that the head takes its place,
with no remnant counted and nothing discarded before, is a DESIGN CHOICE (assumption log 26). -/
def State.takeBar (s : State) : State :=
  match s.bac.rack with
  | [] => s
  | head :: rest =>
    let s := s.onBac fun b => { b with current := some head, rack := rest }
    (s.raise .barLoaded).enter .measuring

/-- R14, R43: the ejection is confirmed. -/
def State.ejected (s : State) : State :=
  let s := s.onSig fun g => { g with remnantLatch := false }
  let s := s.onBac fun b => { b with tray := min s.cfg.trayCap (b.tray + 1) }
  (s.removeCurrent.raise .barEnd).enterEmpty

/-- R35: the front of the bar is seen: the drive is removed and P_trip is taken from the captured count. -/
def State.takeTrip (s : State) (e : Word32) : State :=
  let s := s.onSig fun g => { g with spindleLatch := none }
  s.halt.onFsq fun f => { f with trip := some (positionOf e s.cfg.edges) }

/-! ## Cut-off accounting (R11 to R13, R41) -/

/-- R11: the deviation of a consumption from C exceeds the tolerance. -/
def State.deviates (s : State) (now : Option Int) : Bool :=
  match s.mpt.job, now, s.fsq.pCut with
  | some j, some p, some c => s.cfg.tol < ((p - c) - (j.c : Int)).natAbs
  | _, _, _ => false

/-- R11: the remaining length lies below the grip reserve. -/
def State.gripShort (s : State) : Bool :=
  match s.mpt.job, s.lr with
  | some j, some lr => lr < j.lg
  | _, _ => false

/-- R11, R13, R41, R52, R63: a CUT_DONE pulse with these captured OUTCOME levels is accounted, and the forecast recomputed. That
the cut clock is read and started here, where the pulse had to wait for the encoder or for the FEED_REQ drop, and not at the
pulse, is the model's choice (assumption log 18). -/
def State.account (s : State) (cap : Bool × Bool) : State :=
  let now := s.posn
  let first := s.fsq.firstCut
  let deviates := s.deviates now
  let s := s.onFsq fun f => { f with pCut := now, target := none, firstCut := false, cutWait := none }
  let s := s.onMpt fun m => { m with lotCount := min 65536 (m.lotCount + 1) }
  let s := s.route cap
  let job := s.mpt.job
  let s := s.onSfc fun f => f.cut job first
  let grip := s.gripShort
  let s := s.onlyIf deviates fun s => s.stepFeed .feedDeviation (some 0)
  let s := s.onlyIf grip fun s => s.severe .gripShort (some 0)
  (s.enterByParts false).recompute

/-! ## The engine goes on -/

/-- R40, R41: what the engine makes of the CUT_DONE latch; none where it leaves everything as it is. A second pulse taken in
CUTTING while the first, consumed, waits for the encoder to be still stays latched until the first is accounted, and is then
an UNEXPECTED_CUT; that is the model's choice (assumption log 10). -/
def State.cutStep (s : State) : Option State :=
  match s.fsq.st, s.fsq.cutWait, s.sig.cutLatch with
  | .cutting, some cap, _ => if Config.settleMs ≤ s.fsq.still then some (s.account cap) else none
  | .cutting, none, some cap =>
    some ((s.onSig fun g => { g with cutLatch := none }).onFsq fun f => { f with cutWait := some cap })
  | .feeding, _, some _ =>
    if s.fsq.feedDone then none
    else some ((s.onSig fun g => { g with cutLatch := none }).notice .unexpectedCut none)
  | _, _, some _ => some ((s.onSig fun g => { g with cutLatch := none }).notice .unexpectedCut none)
  | _, _, none => none

/-- An interrupted move continues (R45, R47); a settled one ends (R24). -/
def State.moveStep (s : State) (m : Move) : Option State :=
  match m.phase with
  | .interrupted => some s.drive
  | .coasting => if Config.settleMs ≤ s.fsq.still then some (s.endMove m) else none
  | .waiting | .driving => none

/-- What the engine does next of what stands ready, while it is not held; none where it rests. That MEASURING consumes the
SPINDLE_ENTRY latch at its first edge, so that a bounce sets it anew and leaves it set until the next start, is the model's
choice (assumption log 18; R179, R180). -/
def State.engineStep (s : State) : Option State :=
  if !s.fsq.begun then some s.beginStep
  else if s.fsq.retry then some s.retryStep
  else
    match s.fsq.st, s.fsq.move with
    | .measuring, some m =>
      match s.sig.spindleLatch, s.fsq.trip with
      | some e, none => if m.leg == .homeward then s.moveStep m else some (s.takeTrip e)
      | _, _ => s.moveStep m
    | .loading, _ =>
      if s.fsq.limit.isNone then some (s.onFsq fun f => { f with limit := some Config.loadingLimitMs })
      else if s.inp .channel && !s.bac.rack.isEmpty then some s.takeBar
      else none
    | .ejecting, _ =>
      if s.fsq.limit.isNone then some (s.onFsq fun f => { f with limit := some Config.remnantLimitMs })
      else if s.sig.remnantLatch then some s.ejected
      else none
    | _, some m => s.moveStep m
    | _, none => none

/-- R169, R170: SKIP has ended this move, which has still to settle; a WATCH cause does not hold its end. -/
def State.skipEnds (s : State) : Bool :=
  (s.fsq.st == .feeding || s.fsq.st == .positioning || s.fsq.st == .barEnd) && s.flt.feedPaused.isNone && !s.inSafe &&
    match s.fsq.move with
    | some m => m.halted && m.phase == .coasting
    | none => false

/-- What the engine does next while it is held: only a move that SKIP has ended is over when it has settled. Any other move that
coasts is kept, settled or not, until the pause ends, and so COLLET_ILK stays asserted: whether such a move ends at settle (R24,
R25) or is kept by the pause (R28, R46) the spec leaves open (DESIGN CHOICE, assumption log 19). -/
def State.heldStep (s : State) : Option State := if s.skipEnds then s.fsq.move.bind s.moveStep else none

/-- The engine does all that stands ready, at most this many steps. -/
def State.pump : Nat → State → State
  | 0, s => s
  | n + 1, s =>
    match s.cutStep with
    | some s' => State.pump n s'
    | none =>
      match if s.feedHeld then s.heldStep else s.engineStep with
      | some s' => State.pump n s'
      | none => s

/-- Sixteen steps carry the engine from any state to rest. -/
def State.engine (s : State) : State := s.pump 16

/-! ## RESUME (R170) -/

/-- R170: what SKIP does for a paused kind in the state it was raised in. -/
inductive SkipEffect where
  | refused | asRetry | feedOver | positionOver | retractOver | feedGivenUp | headDropped | ejectGivenUp | barOut
deriving DecidableEq, Repr

/-- R170: the table of SKIP. -/
def skipEffect (k : FaultKind) (paused now : FeedState) : SkipEffect :=
  if paused ≠ now then .asRetry
  else
    match k, now with
    | .pusherStall, .feeding | .colletClosedInMotion, .feeding => .feedOver
    | .pusherStall, .positioning | .colletClosedInMotion, .positioning => .positionOver
    | .pusherStall, .barEnd | .colletClosedInMotion, .barEnd => .retractOver
    | .pusherStall, .homing | .pusherStall, .remeasure | .pusherStall, .measuring => .refused
    | .colletClosedInMotion, .homing | .colletClosedInMotion, .remeasure | .colletClosedInMotion, .measuring => .refused
    | .colletNotOpen, .feeding => .feedGivenUp
    | .barNotSeen, .loading | .wrongBar, .noBar => .headDropped
    | .barNotSeen, .ejecting => .ejectGivenUp
    | .measureFail, .measuring | .measureFail, .remeasure => .barOut
    | _, _ => .asRetry

/-- R47: RETRY, carried out once no WATCH cause remains. -/
def State.retry (s : State) : State := s.onFsq fun f => { f with retry := true }

/-- R39, R170: the feed is given up: READY without FEED_DONE. -/
def State.giveUpFeed (s : State) : State := (s.onFsq fun f => { f with target := none }).enterReady false

/-- R170: SKIP is carried out. A feed, a positioning or a retract that is over ends where the pusher has settled (R24), held by a
WATCH cause or not (R169): its move coasts, never to drive again. -/
def State.skip (s : State) : SkipEffect → State
  | .refused => s
  | .asRetry => s.retry
  | .feedOver | .positionOver | .retractOver => s.halt
  | .feedGivenUp => s.giveUpFeed
  | .headDropped => s.dropHead.enter .noBar
  | .ejectGivenUp => (s.removeCurrent.raise .barEnd).enterEmpty
  | .barOut => s.enter .barEnd

/-! ## The WATCH cause (R45) -/

/-- R42, R45: the WATCH cause is cleared; a bar-end wait starts again. -/
def State.clearWatchPause (s : State) : State :=
  let restart := s.fsq.pauseWatch && s.fsq.st == .barEnd && s.fsq.move.isNone && s.flt.feedPaused.isNone && !s.inSafe
  s.onFsq fun f => { f with pauseWatch := false, begun := f.begun && !restart }

end Sys2Proof.Machine
end

