-- ==== Sys2Proof/Machine/Conclude.lean ====
section
/-! DEFINITION. What follows a change, whatever command made it: the BAR_OUT line, the events raised on entry to a condition,
the recomputation of the forecast, the PRESENCE of a changed summary, the belt size check, the arming check and the claim
selection. Each compares the state before the command with the state after it. -/
namespace Sys2Proof.Machine

/-! ## The lines and events of the engines (R33, R44, R139) -/

/-- R33: BAR_OUT is asserted in NO_BAR with the rack list empty and the channel empty. -/
def State.barOutNow (s : State) : Bool := s.fsq.st == .noBar && s.bac.rack.isEmpty && !s.inp .channel

/-- R33: BAR_OUT follows its condition, and each rise raises the event. -/
def State.refreshBarOut (s : State) : State :=
  let rises := s.barOutNow && !s.fsq.barOut
  (s.onlyIf rises fun s => s.raise .barOut).onFsq fun f => { f with barOut := s.barOutNow }

/-- R44, R139: the events raised on entry to LOT_DONE, to the hold-full condition and to the bin-full condition. -/
def State.entryEvents (s0 s : State) : State :=
  let s := s.onlyIf (s.fsq.st == .lotDone && s0.fsq.st != .lotDone) fun s => s.raise .lotDone
  let s := s.onlyIf (s.holdFull && !s0.holdFull) fun s => s.raise .holdFull
  s.onlyIf (s.binFull && !s0.binFull) fun s => s.raise .rejectBinFull

/-! ## The forecast and the belt size (R63, R95, R130) -/

/-- R95: what a peer table change is judged by: everything but age and hold fill. -/
def Peer.key (p : Peer) : Peer := { p with age := 0, fill := 0 }

/-- R95: the peer table has changed for its readers. -/
def peersChanged (s0 s : State) : Bool := s0.psr.peers.map Peer.key != s.psr.peers.map Peer.key

/-- R63: an event of the table of R63 that shows as a change of state has taken place. -/
def forecastDue (s0 s : State) : Bool :=
  s0.bac.rack != s.bac.rack || s0.bac.enRoute != s.bac.enRoute ||
    (s0.fsq.st == .lotDone) != (s.fsq.st == .lotDone) || s0.inSafe != s.inSafe || s0.holdDispatch != s.holdDispatch ||
    peersChanged s0 s

/-! ## PRESENCE on a change (R93, R94, R140) -/

/-- R94: the state summary is formed afresh; a change of it asks for a PRESENCE. -/
def State.refreshSummary (s : State) : State :=
  let now := s.summaryNow
  let changed := now != s.psr.summary
  (s.onPsr fun p => { p with summary := now }).onlyIf changed fun s => s.request .presence

/-- R93, R140: a change of the own PRESSED mark asks for a PRESENCE. -/
def State.refreshPressed (s0 s : State) : State := s.onlyIf (s0.pressed != s.pressed) fun s => s.request .presence

/-! ## Selection (R144) -/

/-- R144: an entry has left the claim table. -/
def claimLeft (s0 s : State) : Bool :=
  (s0.uns.closing.any fun c => !s.uns.names c.pocket) || s0.uns.active.any fun c => !s.uns.names c.pocket

/-- R144: a pocket has become FREE. -/
def pocketFreed (s0 s : State) : Bool :=
  (List.zip s0.blt.map s.blt.map).any fun e => e.2 == .free && e.1 != .free

/-- R144: one of the occasions of a selection attempt is there. -/
def selectionDue (s0 s : State) : Bool :=
  claimLeft s0 s || s0.uns.seq != s.uns.seq || (s.fsq.st == .cutting && s0.fsq.st != .cutting) ||
    (s.mayClaim && !s0.mayClaim) || pocketFreed s0 s

/-! ## All of it -/

/-- What follows a change from `s0` to `s`. `force` asks for the recomputation whatever has changed. -/
def State.conclude (force : Bool) (s0 s : State) : State :=
  if s.running then
    let s := s.refreshBarOut
    let s := State.entryEvents s0 s
    let s := s.onlyIf (force || forecastDue s0 s) State.recompute
    let s := s.onlyIf (peersChanged s0 s) State.checkSizes
    let s := s.rearm
    let s := s.refreshSummary
    let s := State.refreshPressed s0 s
    s.onlyIf (selectionDue s0 s) fun s => s.select Config.claimCapacity
  else s

/-- The engine goes on, and what follows the command follows. -/
def State.after (force : Bool) (s0 s : State) : State := State.conclude force s0 s.engine

end Sys2Proof.Machine
end

