-- ==== Sys2Proof/Machine/Startup.lean ====
section
/-! DEFINITION. The start-up commands: power-on, straps, configuration memory, the join, the writing of a new record (chapter 11,
section 12.4), and RESTART's part of the blocks (R221). -/
namespace Sys2Proof.Machine

/-! ## The configuration record (section 12.4, R215, R216, R224) -/

/-- R224: the sum of the 64 words of the record, modulo 65,536. -/
def wordSum (r : List Byte) : Nat := ((List.range 64).map fun i => fieldNat r (2 * i) 2).sum % 65536

/-- R216: a value clamped to its range, and whether that changed it. -/
structure Clamped where
  value : Nat
  mark  : Bool
deriving DecidableEq, Repr

/-- R216: below the range the lowest value, above it the highest. -/
def clampField (v lo hi : Nat) : Clamped := { value := clampNat v lo hi, mark := v < lo || hi < v }

/-- R216: a code naming none of the three rates gives 62.5 kbit/s. -/
def clampRate (v : Nat) : Clamped := if 1 ≤ v ∧ v ≤ 3 then { value := v, mark := false } else { value := 1, mark := true }

/-- R177, R216, R224: a filter length of 0 is the default 4, without the mark. -/
def clampFilter (v : Nat) : Clamped := if v = 0 then { value := 4, mark := false } else clampField v 2 15

/-- Section 12.4: the safe-state selection of a code of two bits. -/
def safeSelOfCode (v : Nat) : SafeSel :=
  match v with
  | 0 => .hold
  | 1 => .off
  | 2 => .on
  | _ => .float

/-- R188, R216: a pusher output given HOLD or ON gets OFF. -/
def clampPusherSel (s : SafeSel) : SafeSel × Bool :=
  match s with
  | .hold | .on => (.off, true)
  | .off | .float => (s, false)

/-- Section 12.4: the i-th selection of two bits in the three bytes at offset 46. -/
def selAt (r : List Byte) (i : Nat) : SafeSel := safeSelOfCode (fieldNat r 46 3 / 2 ^ (22 - 2 * i) % 4)

/-- R216: one bar type entry of four bytes, and whether it was clamped. -/
def barTypeAt (r : List Byte) (i : Nat) : BarTypeCfg × Bool :=
  let ln := clampField (fieldNat r (66 + 4 * i) 3) 5000 400000
  let st := fieldNat r (69 + 4 * i) 1
  let code := st % 4
  ({ nominal := ln.value, stock := if code = 1 then .stocked else .barred, locked := st / 128 == 1 },
    ln.mark || !(code == 1 || code == 2))

/-- R216: the working copy of a record, and the config-clamped mark. -/
def readRecord (r : List Byte) : Cfg × Bool :=
  let rate := clampRate (fieldNat r 0 1)
  let n := clampField (fieldNat r 1 1) 16 128
  let ds := clampField (fieldNat r 2 1) 1 (n.value - 1)
  let lmin := clampField (fieldNat r 3 1) 2 8
  let lmax := clampField (fieldNat r 4 1) lmin.value 15
  let y := clampField (fieldNat r 5 1) 2 8
  let h := clampField (fieldNat r 6 1) 1 13
  let tray := clampField (fieldNat r 7 1) 1 60
  let bin := clampField (fieldNat r 8 1) 1 50
  let k1 := clampFilter (fieldNat r 9 1)
  let k2 := clampFilter (fieldNat r 10 1)
  let k3 := clampFilter (fieldNat r 11 1)
  let k4 := clampFilter (fieldNat r 12 1)
  let trip := clampField (fieldNat r 13 2) 1 1023
  let tc := clampField (fieldNat r 15 2) 500 60000
  let runOn := clampField (fieldNat r 17 2) 0 500
  let slow := clampField (fieldNat r 19 2) 0 50000
  let e := clampField (fieldNat r 21 2) 25 400
  let tol := clampField (fieldNat r 23 2) 0 500
  let catching := clampField (fieldNat r 25 2) 200 5000
  let gate := clampField (fieldNat r 27 2) 50 500
  let face := clampField (fieldNat r 33 4) 10000 1048575
  let entry := clampField (fieldNat r 29 4) 0 (face.value - 1)
  let pMax := clampField (fieldNat r 37 4) 0 (face.value - 2000)
  let p0 := clampPusherSel (selAt r 0)
  let p1 := clampPusherSel (selAt r 1)
  let p2 := clampPusherSel (selAt r 2)
  let prio := Vector.ofFn fun i : Fin 16 => clampField (fieldNat r (49 + i) 1) 0 7
  let threshold := clampField (fieldNat r 65 1) 0 7
  let types := Vector.ofFn fun i : Fin 15 => barTypeAt r i
  let fields := [rate, n, ds, lmin, lmax, y, h, tray, bin, k1, k2, k3, k4, trip, tc, runOn, slow, e, tol, catching,
    gate, face, entry, pMax, threshold] ++ prio.toList
  ({ bitRate := rate.value, pockets := n.value, dropDist := ds.value, lmin := lmin.value, lmax := lmax.value,
     spacing := y.value, horizon := h.value, trayCap := tray.value, binCap := bin.value,
     filterK := #v[k1.value, k2.value, k3.value, k4.value], trip := trip.value, tc := tc.value, runOn := runOn.value,
     slowZone := slow.value, edges := e.value, tol := tol.value, catchMs := catching.value, gateMs := gate.value,
     xEntry := entry.value, xFace := face.value, pMax := pMax.value,
     inPol := BitVec.ofNat 24 (fieldNat r 41 3), outPol := BitVec.ofNat 16 (fieldNat r 44 2),
     safeSel := #v[p0.1, p1.1, p2.1, selAt r 3, selAt r 4, selAt r 5, selAt r 6, selAt r 7, selAt r 8, selAt r 9,
       selAt r 10],
     priorities := mapTable (·.value) prio, threshold := threshold.value, barTypes := mapTable (·.1) types },
   fields.any (·.mark) || p0.2 || p1.2 || p2.2 || types.toList.any (·.2))

/-- R218: the record is valid for CONFIG LOAD. -/
def validRecord (r : List Byte) : Bool := wordSum r == 0 && !(readRecord r).2

/-! ## Phases (R214 to R217) -/

/-- R217: the station enters UNCONFIGURED. -/
def State.unconfigure (s : State) (why : Reason) : State :=
  s.onStu fun u => { u with phase := .unconfigured, reason := some why, retry := none }

/-- R214: the power-on state. The input pins, and the samples, line bits and commands still to come, are the world's and
stay. -/
def State.powerOn (s : State) : State :=
  { State.reset with
    sig := { Sig.reset with pins := s.sig.pins }
    samples := s.samples, bits := s.bits, pending := s.pending }

/-- R192: every filter starts afresh. -/
def Sig.restart (g : Sig) : Sig :=
  { g with
    filters := Vector.replicate 21 { acc := none, run := 0 }
    cutLatch := none, spindleLatch := none, remnantLatch := false, rackLatch := false, trayLatch := false
    binLatch := false, dropLatch := false, indexLatch := false, homeLatch := false, phase := none
    settling := some Config.settlingMs }

/-- R212: the priorities and the threshold of the working copy. -/
def Mpt.takeConfig (m : Mpt) (c : Cfg) : Mpt :=
  { m with
    sources := mapTable (fun p => { priority := p, pending := false, inService := false }) c.priorities
    threshold := c.threshold }

/-- R215: the record is read into the working copy, and SETTLING begins. -/
def State.configure (s : State) (r : List Byte) : State :=
  let c := readRecord r
  let s := s.onStu fun u => { u with cfg := some c.1, clamped := c.2, phase := .settling, retry := none }
  let s := s.onSig Sig.restart
  let s := s.onMpt fun m => m.takeConfig c.1
  s.onBlt fun b => { b with map := List.replicate c.1.pockets .unknown }

/-- POWER_ON_RESET: R214, R21, R49, R65, R91, R113, R132, R157, R174, R194, R212. -/
def execPowerOnReset (s : State) : Host.Outcome State Fault Refusal := .next s.powerOn

/-- ADDRESS_STRAPS_READ: R214. -/
def execAddressStrapsRead (addr : LineAddr) (s : State) : Host.Outcome State Fault Refusal :=
  .next (s.onlyIf (s.stu.phase == .straps) fun s =>
    let s := s.onStu fun u => { u with addrRead := some addr }
    if addr = 0 ∨ addr = 63 then s.unconfigure .address
    else s.onStu fun u => { u with phase := .reading, attempts := 0, retry := none })

/-- STRAPS_TIMEOUT: R214. -/
def execStrapsTimeout (s : State) : Host.Outcome State Fault Refusal :=
  .next (s.onlyIf (s.stu.phase == .straps) fun s => s.unconfigure .straps)

/-- R215: a read attempt is being made. -/
def State.reads (s : State) : Bool := s.stu.phase == .reading && s.stu.retry.isNone

/-- CONFIG_READ_DONE: R215, R216. -/
def execConfigReadDone (record : List Byte) (s : State) : Host.Outcome State Fault Refusal :=
  .next (s.onlyIf s.reads fun s => if wordSum record = 0 then s.configure record else s.unconfigure .sum)

/-- R218: the answer that ends a CONFIG LOAD. -/
def State.endLoad (s : State) (r : Status) : State :=
  (s.onStu fun u => { u with load := none }).onMpt fun m => { m with buffer := .pending (some { status := r, data := [] }) }

/-- R218: a failed page or read-back. -/
def State.loadFails (s : State) : State :=
  (s.endLoad .unconfigured).onStu fun u => { u with reason := some .memory }

/-- R218: the pages of a CONFIG LOAD have been written and the read-back is being made. -/
def State.readsBack (s : State) : Bool :=
  match s.stu.load with
  | some l => l.timer.isNone
  | none => false

/-- R215: a failed read attempt. -/
def State.readFails (s : State) : State :=
  let n := s.stu.attempts + 1
  let s := s.onStu fun u => { u with attempts := n }
  if 3 ≤ n then s.unconfigure .memory else s.onStu fun u => { u with retry := some Config.retryMs }

/-- CONFIG_READ_FAIL: R215, R218. A read-back that the memory does not acknowledge is taken as one that differs, and the row does
nothing while the pages are being written; both are the model's choice (DESIGN CHOICE, assumption log 29). -/
def execConfigReadFail (s : State) : Host.Outcome State Fault Refusal :=
  .next (if s.reads then s.readFails else s.onlyIf s.readsBack State.loadFails)

/-- CONFIG_RETRY_WAIT_END: R215. -/
def execConfigRetryWaitEnd (s : State) : Host.Outcome State Fault Refusal :=
  .next (s.onlyIf (s.stu.phase == .reading) fun s => s.onStu fun u => { u with retry := none })

/-! ## The join (R219) -/

/-- R192: the settled inputs hold these levels; the rest have none. -/
def State.settleAll (s : State) (settled levels : InputBits) : State :=
  let s := Input.all.foldl (fun s i => s.onlyIf (settled.getLsbD i.idx) fun s => s.setLevel i (levels.getLsbD i.idx)) s
  let both := settled.getLsbD 19 && settled.getLsbD 20
  s.onSig fun g => { g with
    phase := if both then some (levels.getLsbD 19, levels.getLsbD 20) else none
    settling := none }

/-- R193: the latches cleared at the join. -/
def Sig.joinLatches (g : Sig) : Sig :=
  { g with
    spindleLatch := none, remnantLatch := false, rackLatch := false, trayLatch := false, binLatch := false
    dropLatch := false, indexLatch := false, homeLatch := false }

/-- R72, R82, R92: LISTENING with a fresh timer, nothing driven, a frame being received dropped, and no start bit before 10
recessive bits. -/
def Alc.listen (a : Alc) : Alc :=
  { a with st := .listening, timer := some Config.lineTimerMs, waitGap := true, unit := LineUnit.quiet }

/-- R219: the join. -/
def State.join (s : State) : State :=
  let s0 := s
  let s := s.onStu fun u => { u with phase := .running }
  let s := s.onSig Sig.joinLatches
  let s := s.onAlc Alc.listen
  let s := s.onPsr fun p => { p with second := some Config.oneSecondMs }
  let s := s.onSfc fun f => { f with second := some Config.oneSecondMs }
  let s := s.onUns fun u => { u with seconds := 0, secSub := 0 }
  let s := s.onlyIf (s.inp .channel) State.foundBar
  let s := (s.enter .homing).onFsq fun f => { f with request := s.inp .feedReq }
  let s := s.onlyIf (!s.inp .guard) fun s => s.severe .guardOpen none
  let s := s.onlyIf s.foundDue State.foundPart
  State.after false s0 s

/-- JOIN: R192, R219. -/
def execJoin (levels : InputBits) (s : State) : Host.Outcome State Fault Refusal :=
  .next (s.onlyIf (s.stu.phase == .settling) fun s => (s.settleAll (BitVec.allOnes 21) levels).join)

/-- SETTLE_TIMEOUT: R192, R219. -/
def execSettleTimeout (settled levels : InputBits) (s : State) : Host.Outcome State Fault Refusal :=
  .next (s.onlyIf (s.stu.phase == .settling) fun s => (s.settleAll settled levels).join)

/-! ## CONFIG LOAD (R207, R218) -/

/-- CONFIG_PAGE_WRITTEN: R218. The spec does not say from when the 20 ms of a page run: that they start with the page itself, at
CONFIG LOAD or at the acknowledgement of the page before, and not once its bytes have been sent, is the model's choice
(DESIGN CHOICE, assumption log 29). -/
def execConfigPageWritten (s : State) : Host.Outcome State Fault Refusal :=
  .next (match s.stu.load with
    | some l =>
      match l.timer with
      | some _ =>
        let n := l.pages + 1
        s.onStu fun u => { u with
          load := some { l with pages := n, timer := if n < 8 then some Config.pageMs else none } }
      | none => s
    | none => s)

/-- CONFIG_PAGE_TIMEOUT: R218. A page that fails because one of its bytes is not acknowledged has no row of its own: that this row
carries it too, sent while the page's 20 ms still run, is the model's choice (DESIGN CHOICE, assumption log 29). -/
def execConfigPageTimeout (s : State) : Host.Outcome State Fault Refusal :=
  .next (match s.stu.load with
    | some l =>
      match l.timer with
      | some _ => s.loadFails
      | none => s
    | none => s)

/-- CONFIG_READBACK_DONE: R207, R218. -/
def execConfigReadbackDone (record : List Byte) (s : State) : Host.Outcome State Fault Refusal :=
  .next (match s.stu.load with
    | some l =>
      match l.timer with
      | some _ => s
      | none =>
        if record = l.record then
          s.powerOn.onMpt fun m => { m with buffer := .ready { status := .done, data := [] } }
        else s.loadFails
    | none => s)

/-! ## RESTART (R221) -/

/-- R158: UNS at RESTART; the transmit queue is empty by then. -/
def State.unsRestart (s : State) : State :=
  let closing := s.uns.closing
  let stays := s.inp .trayBottom
  let leaves (c : ClosingClaim) : Bool :=
    match c.stage with
    | .awaitDrop => true
    | .dropping | .awaitConfirm => !stays
    | .awaitRelease | .awaitClaim => false
  let s := closing.foldl (fun s c =>
    match c.bound with
    | some n => s.onlyIf (leaves c) fun s => s.onUns fun u => u.recordLeaves n
    | none => s) s
  s.onUns fun u => { u with closing := [], active := [], gate := none, confirm := none, yield := 0 }

/-- R48, R50: FSQ gives up moves, pulses, pauses, watch, target and FEED_DONE and enters HOMING. A pulse consumed in CUTTING
and not accounted yet goes back to the latch, where HOMING finds it untimely; where a second pulse stands latched already, the
first goes over it with its own capture, and the two give one UNEXPECTED_CUT (DESIGN CHOICE, assumption log 10). The position
and the mode of the watch stay and are shown (assumption log 20). -/
def State.rehome (s : State) : State :=
  let wait := s.fsq.cutWait
  let s := s.onSig fun g => { g with cutLatch := wait.or g.cutLatch }
  (s.enter .homing).onFsq fun f => { f with
    pauseWatch := false, target := none, escape := none, eject := none, watchArmed := false, watchHit := false
    feedDone := false, cutWait := none }

/-- R22, R50, R66, R92, R114, R133, R158, R175, R194, R213: the restart. -/
def State.restart (s : State) : State :=
  let s0 := s
  let s := s.onMpt fun m => { m with sources := mapTable (fun x => { x with pending := false, inService := false }) m.sources }
  let s := s.onFlt fun f => { f.toNormal with feedPaused := none, unloadPaused := none }
  let s := s.emptyQueue
  let s := s.onAlc fun a => { a.listen with consecutive := 0, ownObj := 0, mute := false, doubt := false }
  let s := s.endRound
  let s := (s.onPsr fun p => { p with peers := [], overflow := false, shuttle := .absent, shuttleAge := 0 }).checkSizes
  let s := s.unsRestart.resync
  let s := s.rehome.onFsq fun f => { f with request := s.inp .feedReq }
  let s := s.onSfc fun f => { f with unused := true }
  State.after true s0 s

end Sys2Proof.Machine
end

