-- ==== Sys2Proof/Machine/Reads.lean ====
section
/-! DEFINITION. The data of the reads: the STATION, PEER, POCKET and HOLD pages, FAULT READ, COUNTS READ and JOB READ (R131,
R173, R203, R204, R223, section 12.3). -/
namespace Sys2Proof.Machine

/-- One byte of a small absent-or-present value (R223). -/
def optByte (v : Option Nat) : List Byte := beOpt 1 v

/-- A byte that an absent value leaves unstated (assumption log 8): the value where it is present. -/
def openByte (page off : Nat) : Option Nat → List Byte
  | some v => byteOf v
  | none => [Config.unstatedByte page off]

/-- Several bytes the manual leaves unstated. -/
def openBytes (page off n : Nat) : List Byte := (List.range n).map fun i => Config.unstatedByte page (off + i)

/-- A flag as a bit of weight `w`. -/
def flagAt (w : Nat) (b : Bool) : Nat := if b then w else 0

/-! ## Bar records (section 12.3) -/

/-- Section 12.3, R223: the six bytes of a bar record; an absent record has its first byte 0, its type and length absent and
its marks unstated (assumption log 8). -/
def barBytes (page off : Nat) : Option BarRec → List Byte
  | some b =>
    byteOf b.origin.code ++ beOpt 1 b.barType ++ beOpt 3 b.length ++
      byteOf (flagAt 1 b.verified + flagAt 2 b.wrongType)
  | none => byteOf 0 ++ beOpt 1 none ++ beOpt 3 none ++ openBytes page (off + 5) 1

/-! ## The STATION page (section 12.3) -/

/-- Start-up unit: 4 bytes. -/
def State.pageStart (s : State) : List Byte :=
  byteOf s.stu.phase.code ++ byteOf ((s.stu.reason.map Reason.code).getD 0) ++
    optByte (s.stu.addrRead.map BitVec.toNat) ++ flagByte s.stu.clamped

/-- Fault level and cover: 2 bytes. Before the guard's first accepted level the cover reads as open: R192 says so of the owners
from the 15 ms report on, and that STATUS READ shows it so in SETTLING is the model's choice (DESIGN CHOICE, assumption log 26). -/
def State.pageLevel (s : State) : List Byte := byteOf s.flt.level.code ++ flagByte (s.inp .guard)

/-- R25, R42: the engine is waiting for COLLET_OPEN. The spec does not say what STATUS READ shows while the engine is paused or in
SAFE: that the bit goes with a waiting move that has been interrupted, and stands in BAR_END with no move and COLLET_OPEN closed,
held or not, is the model's choice (DESIGN CHOICE, assumption log 20). -/
def State.waitsForCollet (s : State) : Bool :=
  (match s.fsq.move with
    | some m => m.phase == .waiting
    | none => s.fsq.st == .barEnd) && !s.inp .colletOpen

/-- Feed sequencer: 20 bytes. Section 12.3 marks W as four bytes and not as signed; that it is sent as the signed value of section
12.2, the most negative one where it is absent, is the model's reading (assumption log 15). -/
def State.pageFeed (s : State) : List Byte :=
  byteOf s.fsq.st.code ++
    byteOf (flagAt 1 s.flt.feedPaused.isSome + flagAt 2 s.fsq.pauseWatch + flagAt 4 s.waitsForCollet) ++
    beOptInt 4 s.posn ++ beOptInt 4 s.fsq.pCut ++ beOptInt 4 s.fsq.target ++ flagByte s.fsq.request ++
    beOptInt 4 s.fsq.watchPos ++
    byteOf (flagAt 1 s.fsq.watchArmed + flagAt 2 s.fsq.watchHit + flagAt 4 s.fsq.watchFwd)

/-- Five bar records: 30 bytes. -/
def State.pageBars (s : State) : List Byte :=
  barBytes 1 26 s.bac.current ++ barBytes 1 32 s.bac.rack[0]? ++ barBytes 1 38 s.bac.rack[1]? ++
    barBytes 1 44 s.bac.rack[2]? ++ barBytes 1 50 s.bac.enRoute

/-- Lr, Np, C: 8 bytes. -/
def State.pageFigures (s : State) : List Byte :=
  beOptInt 4 s.lr ++ beBytes 2 s.np ++ beOpt 2 (s.mpt.job.map Job.c)

/-- The byte of stock state and lock: it has the layout of the configuration record, which is the model's choice (assumption log
15). With no entry the stock state is absent, 0, and the lock bit unstated (R223; assumption log 8). -/
def typeByte : Option BarTypeCfg → List Byte
  | some c => byteOf (c.stock.code + flagAt 128 c.locked)
  | none => [Config.unstatedByte 1 64 &&& 0x80]

/-- The entry of the job type: 6 bytes. -/
def State.pageType (s : State) : List Byte :=
  match s.mpt.job with
  | some j =>
    let l := s.learnedOf j.barType
    typeByte (some (s.typeCfg j.barType)) ++ byteOf l.count ++ beBytes 3 l.la ++ byteOf l.hold
  | none => typeByte none ++ beOpt 1 none ++ beOpt 3 none ++ beOpt 1 none

/-- Forecast: 18 bytes. -/
def State.pageForecast (s : State) : List Byte :=
  let v := s.sfc.values
  flagByte s.mpt.job.isSome ++ beBytes 3 s.sfc.ta ++ beOpt 2 (v.map (·.stock)) ++ beOpt 1 (v.map (·.k)) ++
    beOpt 3 (v.map (·.rest)) ++ beOpt 2 (v.map (·.starveS)) ++ beOpt 2 (v.map (·.qAhead)) ++
    beOpt 1 s.sfc.need.baseBand ++ beOpt 1 s.sfc.need.escBand ++ flagByte s.sfc.need.active ++ flagByte s.sfc.starve

/-- Served station, bar type and remaining time: present with BUSY. -/
def ShuttleState.served : ShuttleState → Option (Nat × Nat × Nat)
  | .busy st t r => some (st, t, r)
  | .absent | .idle | .fault .. => none

/-- Fault kind and fault station: present with FAULT. -/
def ShuttleState.failed : ShuttleState → Option (Nat × Nat)
  | .fault k st => some (k.code, st)
  | .absent | .idle | .busy .. => none

/-- Dispatch and shuttle view: 13 bytes. -/
def State.pageShuttle (s : State) : List Byte :=
  let served := s.psr.shuttle.served
  let failed := s.psr.shuttle.failed
  byteOf s.psr.dispatch.code ++ byteOf s.psr.misses ++ byteOf s.psr.shuttle.code ++
    beOpt 1 (served.map (·.1)) ++ beOpt 1 (served.map (·.2.1)) ++ beOpt 2 (served.map (·.2.2)) ++
    byteOf ((failed.map (·.1)).getD 0) ++ beOpt 1 (failed.map (·.2)) ++ beBytes 2 s.psr.shuttleAge ++
    byteOf s.psr.peers.length ++ flagByte s.psr.overflow

/-- Aisle line: 4 bytes. -/
def State.pageLine (s : State) : List Byte :=
  byteOf s.alc.st.code ++ byteOf s.alc.queue.length ++ flagByte s.alc.mute ++ flagByte s.alc.doubt

/-- R131: the fill count. -/
def Sync.fill? : Sync → Option Nat
  | .filling _ f => some f
  | .unsynced | .synced _ => none

/-- R131: how many entries of the map are of a kind. -/
def State.mapCount (s : State) (f : Entry → Bool) : List Byte := byteOf (s.blt.map.countP f)

/-- R131: CLAIMED by self. -/
def Entry.claimedBy (own : Nat) : Entry → Bool
  | .claimed o => o == own
  | .unknown | .free | .loaded .. => false

/-- R131: CLAIMED by another station. -/
def Entry.claimedElse (own : Nat) : Entry → Bool
  | .claimed o => o != own
  | .unknown | .free | .loaded .. => false

/-- R131: LOADED. -/
def Entry.isLoaded : Entry → Bool
  | .loaded .. => true
  | .unknown | .free | .claimed _ => false

/-- Belt tracker: 10 bytes. -/
def State.pageBelt (s : State) : List Byte :=
  byteOf s.blt.sync.code ++ beOpt 1 s.blt.sync.b? ++ beOpt 1 s.blt.sync.fill? ++ byteOf s.blt.misses ++
    flagByte s.blt.mismatch ++ s.mapCount (· == .unknown) ++ s.mapCount (· == .free) ++
    s.mapCount (Entry.claimedBy s.own) ++ s.mapCount (Entry.claimedElse s.own) ++ s.mapCount Entry.isLoaded

/-- The claim entries in table order: pocket, state code, arrival distance of an active claim. -/
def State.claimEntries (s : State) : List (Nat × Nat × Option Nat) :=
  (s.uns.closing.map fun c => (c.pocket, c.stage.code, none)) ++
    s.uns.active.map fun c => (c.pocket, c.stage.code, s.arrival c.pocket)

/-- One claim entry: 3 bytes. That an empty one is sent as three absent values, the pocket as FF and the state as 0, is the model's
choice (assumption log 15). -/
def claimBytes : Option (Nat × Nat × Option Nat) → List Byte
  | some c => byteOf c.1 ++ byteOf c.2.1 ++ beOpt 1 c.2.2
  | none => beOpt 1 none ++ byteOf 0 ++ beOpt 1 none

/-- Unload sequencer: 18 bytes. The gate state is 1 while GATE is commanded and 0 otherwise (assumption log 15). -/
def State.pageUnload (s : State) : List Byte :=
  byteOf s.holdFill ++ flagByte s.pressed ++ flagByte s.flt.unloadPaused.isSome ++ flagByte s.uns.gate.isSome ++
    flagByte s.yieldApplies ++ byteOf s.uns.yield ++ claimBytes s.claimEntries[0]? ++ claimBytes s.claimEntries[1]? ++
    claimBytes s.claimEntries[2]? ++ claimBytes s.claimEntries[3]?

/-- R208: marks of the sources, source k in bit k − 1 (assumption log 15). -/
def marksOf (v : Vector Source 16) (f : Source → Bool) : Nat :=
  (v.toList.map f).foldr (fun b r => 2 * r + (if b then 1 else 0)) 0

/-- Machine port: 6 bytes. -/
def State.pagePort (s : State) : List Byte :=
  byteOf s.mpt.flags.toNat ++ byteOf (flagAt 1 s.faultHold + flagAt 2 s.unloadHold) ++
    beBytes 2 (marksOf s.mpt.sources (·.pending)) ++ beBytes 2 (marksOf s.mpt.sources (·.inService))

/-- Section 12.3: the pin states, two bits each, the first output in the most significant bits. -/
def State.pinBytes (s : State) : List Byte :=
  beBytes 4 ((Output.all.foldl (fun v o => 4 * v + (s.pinState o).code) 0) * 2 ^ 6)

/-- Outputs: 6 bytes. -/
def State.pageOutputs (s : State) : List Byte := packBits 2 (Output.all.map s.commanded) ++ s.pinBytes

/-- The nine latches in the order of the table of R179. -/
def Sig.latches (g : Sig) : List Bool :=
  [g.cutLatch.isSome, g.spindleLatch.isSome, g.remnantLatch, g.rackLatch, g.trayLatch, g.binLatch, g.dropLatch,
   g.indexLatch, g.homeLatch]

/-- Inputs: 9 bytes. The bit of an input without an accepted level is 0: R192 has the owners read one unsettled at the 15 ms report
as inactive, and that STATUS READ shows it so in SETTLING is the model's choice (DESIGN CHOICE, assumption log 26). -/
def State.pageInputs (s : State) : List Byte :=
  packBits 3 (Input.all.map s.inp) ++ packBits 2 s.sig.latches ++ s.cfg.filterK.toList.flatMap byteOf

/-- R204: the groups after the first, while the configuration is in use. -/
def State.pageRest (s : State) : List Byte :=
  s.pageLevel ++ s.pageFeed ++ s.pageBars ++ s.pageFigures ++ s.pageType ++ s.pageForecast ++ s.pageShuttle ++
    s.pageLine ++ s.pageBelt ++ s.pageUnload ++ s.pagePort ++ s.pageOutputs ++ s.pageInputs

/-- Section 12.3: the groups after the first, all absent: unsigned values with all bits set, signed values the most
negative, enumerations 0, records with first byte 0. Bytes the manual leaves unstated are free (assumption log 8); that W counts as
signed is the model's reading, and an empty claim entry its choice (assumption log 15). -/
def absentRest : List Byte :=
  byteOf 0 ++ openBytes 1 5 1 ++
  byteOf 0 ++ openBytes 1 7 1 ++ beOptInt 4 none ++ beOptInt 4 none ++ beOptInt 4 none ++ openBytes 1 20 1 ++
    beOptInt 4 none ++ openBytes 1 25 1 ++
  barBytes 1 26 none ++ barBytes 1 32 none ++ barBytes 1 38 none ++ barBytes 1 44 none ++ barBytes 1 50 none ++
  beOptInt 4 none ++ beOpt 2 none ++ beOpt 2 none ++
  typeByte none ++ beOpt 1 none ++ beOpt 3 none ++ beOpt 1 none ++
  openBytes 1 70 1 ++ beOpt 3 none ++ beOpt 2 none ++ beOpt 1 none ++ beOpt 3 none ++ beOpt 2 none ++ beOpt 2 none ++
    beOpt 1 none ++ beOpt 1 none ++ openBytes 1 86 2 ++
  byteOf 0 ++ beOpt 1 none ++ byteOf 0 ++ beOpt 1 none ++ beOpt 1 none ++ beOpt 2 none ++ byteOf 0 ++ beOpt 1 none ++
    beOpt 2 none ++ beOpt 1 none ++ openBytes 1 100 1 ++
  byteOf 0 ++ beOpt 1 none ++ openBytes 1 103 2 ++
  byteOf 0 ++ beOpt 1 none ++ beOpt 1 none ++ beOpt 1 none ++ openBytes 1 109 1 ++ beOpt 5 none ++
  beOpt 1 none ++ openBytes 1 116 4 ++ beOpt 1 none ++ claimBytes none ++ claimBytes none ++ claimBytes none ++
    claimBytes none ++
  openBytes 1 133 6 ++
  openBytes 1 139 6 ++
  openBytes 1 145 5 ++ beOpt 4 none

/-- Section 12.3: before the configuration is read and in UNCONFIGURED only the first group carries values. -/
def State.stationPage (s : State) : List Byte := s.pageStart ++ (if s.stu.cfg.isSome then s.pageRest else absentRest)

/-! ## PEER, POCKET, HOLD (section 12.3) -/

/-- Section 12.3: the status byte of a record, as PRESENCE. -/
def Peer.statusByte (p : Peer) : Nat := p.fill + flagAt 16 p.pressed + flagAt 128 p.need.isSome

/-- Section 12.3, R223: one peer record, 11 bytes; of an absent one the status byte and the flag are unstated. -/
def peerBytes : Option Peer → List Byte
  | some p =>
    byteOf p.addr ++ byteOf p.age ++ byteOf p.ds ++ byteOf p.n ++ byteOf p.statusByte ++ byteOf p.summary.code ++
      flagByte p.need.isSome ++ beOpt 1 (p.need.map (·.band)) ++ beOpt 1 (p.need.map (·.barType)) ++
      beOpt 2 (p.need.map (·.trip))
  | none =>
    byteOf 0 ++ beOpt 1 none ++ beOpt 1 none ++ beOpt 1 none ++ openBytes 2 4 1 ++ byteOf 0 ++ openBytes 2 6 1 ++
      beOpt 1 none ++ beOpt 1 none ++ beOpt 2 none

/-- R204: the place of an index counted from 1. -/
def atIndex {α : Type} (l : List α) (i : Nat) : Option α := if i = 0 then none else l[i - 1]?

/-- Section 12.3: owner, part mark and sequence number of an entry. -/
def entryBytes : Entry → List Byte
  | .unknown => byteOf 1 ++ beOpt 1 none ++ byteOf 0 ++ beOpt 2 none
  | .free => byteOf 2 ++ beOpt 1 none ++ byteOf 0 ++ beOpt 2 none
  | .claimed o => byteOf 3 ++ byteOf o ++ byteOf 0 ++ beOpt 2 none
  | .loaded o m n => byteOf 4 ++ byteOf o ++ byteOf m.code ++ beBytes 2 n.toNat

/-- Section 12.3, R223: one part record, 12 bytes; of an absent one the presence byte is unstated. -/
def partBytes (place : Nat) : Option PartRec → List Byte
  | some r =>
    byteOf place ++ beBytes 2 r.seq.toNat ++ beOpt 2 (r.lot.map BitVec.toNat) ++ byteOf r.outcome.code ++
      beBytes 4 r.stamp.toNat ++ byteOf ((r.origin.map Origin.code).getD 0) ++
      byteOf (flagAt 1 r.lot.isSome + flagAt 2 r.dropped)
  | none =>
    byteOf 0 ++ beOpt 2 none ++ beOpt 2 none ++ byteOf 0 ++ beOpt 4 none ++ byteOf 0 ++ openBytes 4 11 1

/-- R204: the page of a selector and an index; none where the selector names no page. -/
def State.page (s : State) (selector index : Nat) : Option (List Byte) :=
  match selector with
  | 1 => some s.stationPage
  | 2 => some (peerBytes (atIndex s.psr.peers index))
  | 3 => some (byteOf index ++ entryBytes (s.entryAt index))
  | 4 => some (partBytes index (atIndex s.uns.hold index))
  | _ => none

/-! ## FAULT READ, COUNTS READ, JOB READ -/

/-- Section 12.3, R174, R223: a capture without its from level, 6 bytes; an empty capture has kind 0, absent fields and no
active mark. -/
def captureBytes : Option Capture → List Byte
  | some c =>
    byteOf c.kind.code ++ byteOf c.engine.code ++ byteOf c.state.code ++ beOpt 2 c.ctx ++ flagByte c.active
  | none => byteOf 0 ++ byteOf 0 ++ byteOf 0 ++ beOpt 2 none ++ flagByte false

/-- Section 12.3: the from level of the safe capture. -/
def fromBytes : Option Capture → List Byte
  | some c => byteOf ((c.fromLevel.map Level.code).getD 0)
  | none => byteOf 0

/-- R173: the 27 bytes of FAULT READ. -/
def State.faultBytes (s : State) : List Byte :=
  let f := s.flt
  byteOf f.level.code ++ captureBytes f.alert ++ captureBytes f.safe ++ fromBytes f.safe ++ byteOf f.further ++
    beBytes 2 f.furtherSet.toNat ++
    byteOf ((f.feedPaused.map fun p => p.1.code).getD 0) ++ byteOf ((f.feedPaused.map fun p => p.2.code).getD 0) ++
    byteOf ((f.unloadPaused.map fun p => p.1.code).getD 0) ++ byteOf ((f.unloadPaused.map fun p => p.2.code).getD 0) ++
    byteOf ((f.last.map fun p => p.1.code).getD 0) ++ beOpt 2 (f.last.bind (·.2)) ++ beBytes 2 f.notices.toNat ++
    flagByte (s.inp .guard)

/-- R203: the 24 bytes of COUNTS READ. -/
def State.countBytes (s : State) : List Byte :=
  byteOf s.bac.tray ++ byteOf s.cfg.trayCap ++ byteOf s.bac.bin ++ byteOf s.cfg.binCap ++
    beBytes 4 s.uns.caught.toNat ++ beBytes 4 s.uns.binned.toNat ++ beBytes 4 s.uns.dropped.toNat ++
    beBytes 2 s.alc.failed.toNat ++ beBytes 2 s.alc.discards.toNat ++ beBytes 2 s.alc.objections.toNat ++
    beBytes 2 s.sig.skips.toNat

/-- R203, section 12.2: the data of JOB READ. -/
def State.jobBytes (s : State) : List Byte :=
  (match s.mpt.job with
    | some j => flagByte true ++ j.bytes
    | none => flagByte false) ++
  beBytes 3 s.mpt.lotCount ++ beBytes 2 s.mpt.lotNo.toNat

end Sys2Proof.Machine
end

