-- ==== Sys2Proof/Machine/Port.lean ====
section
/-! DEFINITION. The machine port: the taking and deciding of a frame, and the commands of section 12.2 (chapter 10). A command
is decided at the CS_N edge that takes it; RESPONSE_PLACED then makes its response readable (assumption log 6). -/
namespace Sys2Proof.Machine

/-! ## Frames (R197, R198) -/

/-- Section 12.2: the code of the buffer state. -/
def Buffer.code : Buffer → Nat
  | .empty => 0
  | .pending _ => 1
  | .ready _ => 2

/-- Section 12.2: the port byte as the station stands. -/
def Mpt.portByte (m : Mpt) : Byte := BitVec.ofNat 8 (m.buffer.code + flagAt 128 m.attn)

/-- R197: the port byte of the frame that ends: the one formed at the falling edge of CS_N, or the present one where no sample
has shown CS_N low (assumption log 6). -/
def Mpt.firstByte (m : Mpt) : Byte := m.selected.getD m.portByte

/-- R197: the port byte is formed where a sample shows CS_N low for the first time, and is gone where one shows it high. -/
def Mpt.select (m : Mpt) (csLow : Bool) : Mpt :=
  { m with selected := if csLow then some m.firstByte else none }

/-- R198: the buffer takes a command. -/
def Mpt.takes (m : Mpt) : Bool :=
  match m.buffer with
  | .empty | .ready _ => true
  | .pending _ => false

/-- R197: what MISO carries in a frame of this many byte times that is no READ RESPONSE. -/
def Mpt.misoOf (m : Mpt) : Nat → List Byte
  | 0 => []
  | n + 1 => m.firstByte :: List.replicate n 0

/-- R197: a frame of this many byte times that is no READ RESPONSE has been clocked. -/
def Mpt.clocked (m : Mpt) (bytes : Nat) : Mpt := { m with miso := m.misoOf bytes, selected := none }

/-- R198: the response waits to be placed. -/
def State.answer (s : State) (st : Status) (data : List Byte) : State :=
  s.onMpt fun m => { m with buffer := .pending (some { status := st, data := data }) }

/-- R200, section 12.2: the command of this byte needs the setup key. -/
def needsKey (code : Byte) : Bool := code == 0x10 || code == 0x12 || code == 0x51 || code == 0x7E || code == 0x7F

/-- R199, R200, checks 2 to 5: what refuses a command before its own checks. STATUS READ passes checks 2 and 3, CONFIG LOAD
passes check 3. The key is the accepted level of SETUP_KEY at the end of the frame, where it is taken, even for a key turned while
it was clocked; that is the model's choice (assumption log 6). -/
def State.refusal (s : State) (code : Byte) (payload : List Byte) : Option Status :=
  let status := code == 0x20
  if !status && (s.stu.phase == .straps || s.stu.phase == .reading || s.stu.phase == .settling) then some .busy
  else if !status && code != 0x7F && s.stu.phase == .unconfigured then some .unconfigured
  else if commandLength code != some payload.length then some .range
  else if needsKey code && !s.inp .setupKey then some .setup
  else none

/-- R197 to R199: a command frame is taken and decided; while the buffer is PENDING it is not taken. `act` carries the
command out once the checks 2 to 5 have passed, and gives its own answer. -/
def State.command (s : State) (code : Byte) (payload : List Byte) (act : State → State) : State :=
  let takes := s.mpt.takes
  let s := s.onMpt fun m => m.clocked (2 + payload.length)
  if takes then
    match s.refusal code payload with
    | some st => s.answer st []
    | none => act s
  else s

/-- A command that changed state: what follows the change, and the answer. -/
def State.carried (s0 s : State) (force : Bool) (data : List Byte) : State := (State.after force s0 s).answer .done data

/-- MALFORMED_FRAME: R197. MISO carries the port byte and then zeros. -/
def execMalformedFrame (bytes : Nat) (s : State) : Host.Outcome State Fault Refusal :=
  .next (
    let takes := s.mpt.takes
    let s := s.onMpt fun m => m.clocked bytes
    if takes then s.answer .range [] else s)

/-- Section 12.2: the response as a READ RESPONSE frame carries it. -/
def Buffer.shown : Buffer → List Byte
  | .empty | .pending _ => byteOf Status.notReady.code ++ byteOf 0
  | .ready r => byteOf r.status.code ++ byteOf r.data.length ++ r.data

/-- R197, R198: what MISO carries in a READ RESPONSE frame of this many byte times: the port byte, zero, and the response, cut
where the frame ends early. That the response is the one the buffer holds at the end of the frame is the model's choice. What it carries past the last data byte the spec does not say: free bytes (assumption log 6). -/
def Mpt.responseMiso (m : Mpt) (bytes : Nat) : List Byte :=
  let whole := m.firstByte :: 0 :: m.buffer.shown
  whole.take bytes ++ (List.range (bytes - whole.length)).map fun i => Config.unstatedByte 6 (whole.length + i)

/-- READ_RESPONSE: R197, R198. -/
def execReadResponse (bytes : Nat) (s : State) : Host.Outcome State Fault Refusal :=
  .next (s.onMpt fun m => { m with miso := m.responseMiso bytes, selected := none })

/-- RESPONSE_PLACED: R198. -/
def execResponsePlaced (s : State) : Host.Outcome State Fault Refusal :=
  .next (s.onMpt fun m => { m with buffer :=
    match m.buffer with
    | .pending (some r) => .ready r
    | .empty => .empty
    | .pending none => .pending none
    | .ready r => .ready r })

/-- UNKNOWN_COMMAND: R199, check 1. A READ RESPONSE byte with a length other than 0 names a command; its frame is no READ
RESPONSE (R198) and fails check 4. -/
def execUnknownCommand (code : Byte) (payload : List Byte) (s : State) : Host.Outcome State Fault Refusal :=
  .next (
    if code = 0x01 then s.command code payload fun s => s.answer .range []
    else
      let takes := s.mpt.takes
      let s := s.onMpt fun m => m.clocked (2 + payload.length)
      if takes then s.answer .unknown [] else s)

/-! ## Job and lot (R201, R202) -/

/-- R201: the engine states in which a job or a lot is taken. -/
def FeedState.takesJob : FeedState → Bool
  | .noJob | .noBar | .ready | .lotDone => true
  | .homing | .remeasure | .loading | .measuring | .positioning | .feeding | .cutting | .barEnd | .ejecting => false

/-- R44: LOT_DONE is left. -/
def State.leaveLotDone (s : State) : State :=
  if s.bac.current.isNone then s.enter .noBar else if s.np = 0 then s.enter .barEnd else s.enter .ready

/-- R20: a bar record under the new job. -/
def BarRec.underJob (j : Job) (b : BarRec) : BarRec :=
  let t := b.barType.or (some j.barType)
  { b with barType := t, wrongType := wrongTypeOf (some j) t }

/-- R31: NO_JOB is left. -/
def State.leaveNoJob (s : State) : State :=
  if s.inp .channel then s.foundBar.enter .remeasure else s.removeCurrent.enter .noBar

/-- R10: the bar-end decision in READY. -/
def State.readyDecision (s : State) : State :=
  if s.bac.current.isSome && s.fsq.pCut.isSome && s.np == 0 then s.enter .barEnd else s

/-- R201, step 4: the feed engine at an accepted JOB SET. -/
def State.engineAtJob (s : State) : State :=
  match s.fsq.st with
  | .noJob => s.leaveNoJob
  | .ready => s.readyDecision
  | .lotDone => s.leaveLotDone
  | .noBar | .homing | .remeasure | .loading | .measuring | .positioning | .feeding | .cutting | .barEnd | .ejecting => s

/-- R201: the accepted JOB SET. -/
def State.setJob (s : State) (j : Job) : State :=
  let s := s.onMpt fun m => { m with job := some j, lotCount := 0, lotNo := m.lotNo + 1 }
  let s := s.onBac fun b => { b with
    current := b.current.map (BarRec.underJob j), rack := b.rack.map (BarRec.underJob j)
    enRoute := b.enRoute.map (BarRec.underJob j) }
  let s := s.onSfc fun f => { f with ta8 := 8 * j.tn }
  s.engineAtJob

/-- JOB_SET: R1, R20, R201. -/
def execJobSet (payload : List Byte) (s : State) : Host.Outcome State Fault Refusal :=
  .next (s.command 0x10 payload fun s =>
    let j := jobOf payload
    if !s.fsq.st.takesJob then s.answer .busy []
    else if !j.inRange then s.answer .range []
    else if (s.typeCfg j.barType).stock == .barred then s.answer .type []
    else
      let s' := s.setJob j
      State.carried s s' true (beBytes 2 s'.mpt.lotNo.toNat))

/-- JOB_READ: R203. -/
def execJobRead (payload : List Byte) (s : State) : Host.Outcome State Fault Refusal :=
  .next (s.command 0x11 payload fun s => s.answer .done s.jobBytes)

/-- R202: the feed engine at an accepted LOT SET. -/
def State.engineAtLot (s : State) : State :=
  match s.fsq.st with
  | .ready | .noBar => if s.lotReached then s.enter .lotDone else s
  | .lotDone => if s.lotReached then s else s.leaveLotDone
  | .noJob | .homing | .remeasure | .loading | .measuring | .positioning | .feeding | .cutting | .barEnd | .ejecting => s

/-- R202: the accepted LOT SET. -/
def State.setLot (s : State) (j : Job) (q count number : Nat) : State :=
  (s.onMpt fun m => { m with job := some { j with q := q }, lotCount := count, lotNo := BitVec.ofNat 16 number }).engineAtLot

/-- LOT_SET: R202, R223. -/
def execLotSet (payload : List Byte) (s : State) : Host.Outcome State Fault Refusal :=
  .next (s.command 0x12 payload fun s =>
    let q := fieldNat payload 0 2
    let count := fieldNat payload 2 3
    match s.mpt.job with
    | none => s.answer .state []
    | some j =>
      if !s.fsq.st.takesJob then s.answer .busy []
      else if ({ j with q := q } : Job).quantity < count then s.answer .range []
      else State.carried s (s.setLot j q count (fieldNat payload 5 2)) true [])

/-! ## Reads (R203, R204) -/

/-- STATUS_READ: R204, R223. -/
def execStatusRead (payload : List Byte) (s : State) : Host.Outcome State Fault Refusal :=
  .next (s.command 0x20 payload fun s =>
    match s.page (fieldNat payload 0 1) (fieldNat payload 1 1) with
    | some data => s.answer .done data
    | none => s.answer .range [])

/-- FAULT_READ: R173. -/
def execFaultRead (payload : List Byte) (s : State) : Host.Outcome State Fault Refusal :=
  .next (s.command 0x21 payload fun s => s.answer .done s.faultBytes)

/-- COUNTS_READ: R203. -/
def execCountsRead (payload : List Byte) (s : State) : Host.Outcome State Fault Refusal :=
  .next (s.command 0x22 payload fun s => s.answer .done s.countBytes)

/-! ## Station flags (R205) -/

/-- R205: the mask names nothing beyond the five flags. -/
def maskNames (mask : Nat) : Bool := mask < 32

/-- R205: a flag command writes the flags. -/
def State.flagCommand (s : State) (code : Byte) (payload : List Byte) (f : BitVec 5 → BitVec 5 → BitVec 5) : State :=
  s.command code payload fun s =>
    let mask := fieldNat payload 0 1
    if maskNames mask then
      let s' := s.onMpt fun m => { m with flags := f m.flags (BitVec.ofNat 5 mask) }
      State.carried s s' false (byteOf s'.mpt.flags.toNat)
    else s.answer .range []

/-- FLAGS_SET: R205. -/
def execFlagsSet (payload : List Byte) (s : State) : Host.Outcome State Fault Refusal :=
  .next (s.flagCommand 0x30 payload fun old mask => old ||| mask)

/-- FLAGS_CLEAR: R205. -/
def execFlagsClear (payload : List Byte) (s : State) : Host.Outcome State Fault Refusal :=
  .next (s.flagCommand 0x31 payload fun old mask => old &&& ~~~mask)

/-- FLAGS_FLIP: R205. -/
def execFlagsFlip (payload : List Byte) (s : State) : Host.Outcome State Fault Refusal :=
  .next (s.flagCommand 0x32 payload fun old mask => old ^^^ mask)

/-! ## Event sources (R209 to R211) -/

/-- The sources with one replaced. -/
def State.setSource (s : State) (i : Nat) (x : Source) : State :=
  s.onMpt fun m => { m with sources := m.sources.setIfInBounds i x }

/-- R209: the claim of the chosen source. -/
def State.claimEvent (s : State) : State × Nat :=
  match s.mpt.choice with
  | some i => (s.setSource i { s.mpt.sources[i] with pending := false, inService := true }, i.val + 1)
  | none => (s, 0)

/-- EVENT_CLAIM: R209. -/
def execEventClaim (payload : List Byte) (s : State) : Host.Outcome State Fault Refusal :=
  .next (s.command 0x40 payload fun s => s.claimEvent.1.answer .done (byteOf s.claimEvent.2))

/-- The source an ID names. -/
def Mpt.source (m : Mpt) (id : Nat) : Option Source := if id = 0 then none else m.sources[id - 1]?

/-- EVENT_COMPLETE: R210. -/
def execEventComplete (payload : List Byte) (s : State) : Host.Outcome State Fault Refusal :=
  .next (s.command 0x41 payload fun s =>
    let id := fieldNat payload 0 1
    match s.mpt.source id with
    | some x =>
      if x.inService then (s.setSource (id - 1) { x with inService := false }).answer .done (byteOf 1)
      else s.answer .done (byteOf 0)
    | none => s.answer .range [])

/-- EVENT_PRIORITY_SET: R211. -/
def execEventPrioritySet (payload : List Byte) (s : State) : Host.Outcome State Fault Refusal :=
  .next (s.command 0x42 payload fun s =>
    let id := fieldNat payload 0 1
    let v := min 7 (fieldNat payload 1 1)
    match s.mpt.source id with
    | some x => (s.setSource (id - 1) { x with priority := v }).answer .done (byteOf v)
    | none => s.answer .range [])

/-- EVENT_THRESHOLD_SET: R211. -/
def execEventThresholdSet (payload : List Byte) (s : State) : Host.Outcome State Fault Refusal :=
  .next (s.command 0x43 payload fun s =>
    let v := min 7 (fieldNat payload 0 1)
    (s.onMpt fun m => { m with threshold := v }).answer .done (byteOf v))

/-! ## Commands served for other blocks (R206) -/

/-- R169, R171: FLT accepts a RESUME: the pause goes, SFC marks the interval, and the level returns to NORMAL with no engine
left paused. -/
def State.resumed (s : State) (f : Flt → Flt) : State :=
  let s := s.onFlt f
  let s := s.onSfc fun c => { c with unused := true }
  s.onlyIf (s.flt.feedPaused.isNone && s.flt.unloadPaused.isNone) fun s => s.onFlt Flt.toNormal

/-- R169, R170: RESUME for the feed engine with its paused kind and paused state. -/
def State.resumeFeed (s : State) (k : FaultKind) (st : FeedState) (skip : Bool) : State :=
  let e := if skip then skipEffect k st s.fsq.st else .asRetry
  if e = .refused then s.answer .state []
  else
    let s' := (s.resumed fun f => { f with feedPaused := none }).skip e
    State.carried s s' false []

/-- R154, R169: RESUME for the unload engine. -/
def State.resumeUnload (s : State) : State :=
  State.carried s (s.resumed fun f => { f with unloadPaused := none }) false []

/-- RESUME: R169 to R171, R199, R206. Where a code that names no engine or no action meets a failed state condition, R199
puts STATE first and R206 has the payload checked first. The order taken here is the model's choice (DESIGN CHOICE, assumption
log 31): level (STATE), engine code (RANGE), pause of that engine (STATE), action code (RANGE). -/
def execResume (payload : List Byte) (s : State) : Host.Outcome State Fault Refusal :=
  .next (s.command 0x50 payload fun s =>
    let engine := fieldNat payload 0 1
    let action := fieldNat payload 1 1
    let asked := action = 1 ∨ action = 2
    if s.flt.level ≠ .alert then s.answer .state []
    else if engine = 1 then
      match s.flt.feedPaused with
      | none => s.answer .state []
      | some p => if asked then s.resumeFeed p.1 p.2 (action = 2) else s.answer .range []
    else if engine = 2 then
      if s.flt.unloadPaused.isNone then s.answer .state []
      else if asked then s.resumeUnload
      else s.answer .range []
    else s.answer .range [])

/-- R48, R172, R190: the accepted FAULT CLEAR. An open gate time ends, so that GATE comes out of SAFE deasserted. -/
def State.faultCleared (s : State) : State :=
  ((s.onFlt fun f => { f.toNormal with feedPaused := none, unloadPaused := none }).onUns fun u =>
    { u with gate := none }).rehome

/-- FAULT_CLEAR: R172, R206. -/
def execFaultClear (payload : List Byte) (s : State) : Host.Outcome State Fault Refusal :=
  .next (s.command 0x51 payload fun s =>
    if !s.inSafe || !s.inp .guard then s.answer .state []
    else State.carried s s.faultCleared true [])

/-- WATCH_SET: R45, R206. -/
def execWatchSet (payload : List Byte) (s : State) : Host.Outcome State Fault Refusal :=
  .next (s.command 0x60 payload fun s =>
    let w := clampInt (beSigned (slice payload 0 4)) 0 s.cfg.pMax
    let mode := fieldNat payload 4 1
    if mode = 1 ∨ mode = 2 then
      let s' := s.clearWatchPause.onFsq fun f =>
        { f with watchPos := some w, watchArmed := true, watchHit := false, watchFwd := mode = 2 }
      State.carried s s' false (beInt 4 w)
    else s.answer .range [])

/-- WATCH_OFF: R45. The position and the mode last set stay and are shown, which is the model's choice (assumption log 20). -/
def execWatchOff (payload : List Byte) (s : State) : Host.Outcome State Fault Refusal :=
  .next (s.command 0x61 payload fun s =>
    let s' := s.clearWatchPause.onFsq fun f => { f with watchArmed := false, watchHit := false }
    State.carried s s' false [])

/-- REMNANT_TRAY_EMPTIED: R15. -/
def execRemnantTrayEmptied (payload : List Byte) (s : State) : Host.Outcome State Fault Refusal :=
  .next (s.command 0x70 payload fun s => (s.onBac fun b => { b with tray := 0 }).answer .done [])

/-- REJECT_BIN_EMPTIED: R16, R139. -/
def execRejectBinEmptied (payload : List Byte) (s : State) : Host.Outcome State Fault Refusal :=
  .next (s.command 0x71 payload fun s => State.carried s (s.onBac fun b => { b with bin := 0 }) false [])

/-- RESTART: R207, R221. The response DONE is placed before the restart acts. -/
def execRestart (payload : List Byte) (s : State) : Host.Outcome State Fault Refusal :=
  .next (s.command 0x7E payload fun s =>
    if s.inSafe then s.answer .state []
    else (s.onMpt fun m => { m with buffer := .ready { status := .done, data := [] } }).restart)

/-- CONFIG_LOAD: R207, R218. The 20 ms of the first page start here (DESIGN CHOICE, assumption log 29). -/
def execConfigLoad (payload : List Byte) (s : State) : Host.Outcome State Fault Refusal :=
  .next (s.command 0x7F payload fun s =>
    if s.stu.phase ≠ .unconfigured then s.answer .state []
    else if validRecord payload then
      (s.onStu fun u => { u with load := some { record := payload, pages := 0, timer := some Config.pageMs } }).onMpt
        fun m => { m with buffer := .pending none }
    else s.answer .range [])

end Sys2Proof.Machine
end

