-- ==== Sys2Proof/Machine/Feed.lean ====
section
/-! DEFINITION. The commands of the feed sequencer: the lines of the lathe control and of the loader it reads, its timers, and
the steps that start when their conditions hold (chapter 2, R182 to R186, R168). Before the join a line's command changes its
accepted level and its latch and nothing else (assumption log 7). -/
namespace Sys2Proof.Machine

/-- While the station runs, `f` and what follows it; before the join, the state as it is. -/
def State.inService (s0 s : State) (f : State → State) : State :=
  if s.running then State.after false s0 (f s) else s

/-! ## Lines of the lathe control -/

/-- FEED_REQ_RAISED: R37. -/
def execFeedReqRaised (s : State) : Host.Outcome State Fault Refusal :=
  .next (State.inService s (s.setLevel .feedReq true) fun s => s.onFsq fun f => { f with request := true })

/-- R39, R40: FEED_REQ has dropped. At the entry to CUTTING a selection is attempted (R144), before a pulse that stands
latched is accounted. -/
def State.feedDropped (s : State) : State :=
  let s := s.onFsq fun f => { f with request := false }
  if s.fsq.st = .feeding then
    if s.fsq.feedDone then
      ((s.onFsq fun f => { f with feedDone := false }).enter .cutting).select Config.claimCapacity
    else s.giveUpFeed
  else s

/-- FEED_REQ_DROPPED: R37, R39, R40. -/
def execFeedReqDropped (s : State) : Host.Outcome State Fault Refusal :=
  .next (State.inService s (s.setLevel .feedReq false) State.feedDropped)

/-- R37: the pending request can be served, and its target (R38). -/
def State.servable (s : State) : Option Int :=
  match s.mpt.job, s.fsq.pCut with
  | some j, some p =>
    if s.running && s.fsq.request && s.fsq.st == .ready && !s.feedHeld && s.feedPermitted && !s.fsq.feedDone then
      some (p + j.c)
    else none
  | _, _ => none

/-- FEED_SERVE: R37, R38. That the target recorded is P_cut + C as formed, and only that of the move is cut to P_max (R24), is the
model's choice (assumption log 19). -/
def execFeedServe (s : State) : Host.Outcome State Fault Refusal :=
  .next (match s.servable with
    | some t =>
      State.after false s ((s.onFsq fun f => { f with request := false, target := some t }).enter .feeding)
    | none => s)

/-- R181, R182: what a CUT_DONE edge captures: the accepted levels of OUTCOME_A and OUTCOME_B. -/
def State.outcomes (s : State) : Bool × Bool := (s.inp .outcomeA, s.inp .outcomeB)

/-- CUT_DONE_EDGE: R40, R41, R179 to R182. -/
def execCutDoneEdge (s : State) : Host.Outcome State Fault Refusal :=
  .next (
    let s' := (s.setLevel .cutDone true).onSig fun g => { g with cutLatch := g.cutLatch.or (some s.outcomes) }
    State.inService s s' id)

/-- The move waits for COLLET_OPEN. -/
def State.waiting (s : State) : Bool :=
  match s.fsq.move with
  | some m => m.phase == .waiting
  | none => false

/-- COLLET_OPEN_ASSERTED: R25, R29, R38. -/
def execColletOpenAsserted (s : State) : Host.Outcome State Fault Refusal :=
  .next (State.inService s (s.setLevel .colletOpen true) fun s => s.onlyIf (s.waiting && !s.feedHeld) State.drive)

/-- The move drives the pusher. -/
def State.drives (s : State) : Bool := s.fsq.drives .fwd || s.fsq.drives .rev

/-- COLLET_OPEN_DROPPED: R25. -/
def execColletOpenDropped (s : State) : Host.Outcome State Fault Refusal :=
  .next (State.inService s (s.setLevel .colletOpen false) fun s =>
    s.onlyIf s.drives fun s => s.stepFeed .colletClosedInMotion none)

/-! ## The encoder (R185, R46, R24) -/

/-- R185: the place of a pair in the forward order 00, 10, 11, 01. -/
def phasePlace (a b : Bool) : Nat :=
  match a, b with
  | false, false => 0
  | true, false => 1
  | true, true => 2
  | false, true => 3

/-- R185: one change of the accepted pair. -/
inductive Quad where
  | same | forward | reverse | skip
deriving DecidableEq, Repr

/-- R185: a change along the forward order, against it, or of both levels at once. -/
def quadStep (old new : Bool × Bool) : Quad :=
  match (phasePlace new.1 new.2 + 4 - phasePlace old.1 old.2) % 4 with
  | 0 => .same
  | 1 => .forward
  | 2 => .skip
  | _ => .reverse

/-- R46: a change of P from `p` to `q` crosses the armed watch position. -/
def Fsq.watchHits (f : Fsq) (p q : Option Int) : Bool :=
  match f.watchArmed, f.watchPos, p, q with
  | true, some w, some p, some q => (p < w && w ≤ q) || (!f.watchFwd && w ≤ p && q < w)
  | _, _, _, _ => false

/-- R46: the watch is hit. -/
def State.hitWatch (s : State) : State :=
  let s := s.onFsq fun f => { f with watchArmed := false, watchHit := true, pauseWatch := true }
  s.holdFeed.raise .watchHit

/-- R24: a driving move at a new P: its outputs go at the stop point, and PUSH_FAST follows its rule. -/
def State.trackMove (s : State) : State :=
  match s.fsq.move with
  | some m =>
    if m.phase = .driving then
      if s.reached m then s.setMove { m with phase := .coasting, fast := false }
      else s.setMove { m with fast := s.fastRule m }
    else s
  | none => s

/-- R185: the decoder of SIG takes a new accepted pair. A skip is counted once both phases had a level before it. -/
def Sig.decode (g : Sig) (new : Bool × Bool) : Sig :=
  { g with
    phase := some new
    skips := match g.phase with
      | some old => if quadStep old new = .skip then g.skips + 1 else g.skips
      | none => g.skips }

/-- R185: what an encoder edge or a skip makes of the count and of the stillness times. -/
def State.countEdge (s : State) (q : Quad) : State :=
  match q with
  | .same => s
  | .skip => s.onFsq fun f => { f with still := 0, quiet := 0 }
  | .forward => s.onFsq fun f => { f with e := f.e + 1, still := 0, quiet := 0 }
  | .reverse => s.onFsq fun f => { f with e := f.e - 1, still := 0, quiet := 0 }

/-- R46, R24: a new value of P. -/
def State.newPosition (s : State) (old : Option Int) : State :=
  (s.onlyIf (s.fsq.watchHits old s.posn) State.hitWatch).trackMove

/-- ENCODER_EDGE: R23, R24, R46, R185. The first accepted pair is the starting phase and gives no step. -/
def execEncoderEdge (a b : Bool) (s : State) : Host.Outcome State Fault Refusal :=
  .next (
    let s' := (s.setLevel .encA a).setLevel .encB b
    let old := s.sig.phase
    let s' := s'.onSig fun g => g.decode (a, b)
    State.inService s s' fun s' =>
      match old with
      | some p => (s'.countEdge (quadStep p (a, b))).newPosition s'.posn
      | none => s')

/-! ## Settling, stall, contact (R24, R26, R32) -/

/-- MOVE_SETTLED: R24, R41. The encoder has been still for 20 ms. -/
def execMoveSettled (s : State) : Host.Outcome State Fault Refusal :=
  .next (State.inService s s fun s => s.onFsq fun f => { f with still := max f.still Config.settleMs })

/-- R26, R32: the stall rule watches the move: it drives, and it is not the advance to contact. -/
def State.stallable (s : State) : Bool := s.drives && !(s.fsq.st == .remeasure && s.driving .main)

/-- PUSHER_STALL: R26. -/
def execPusherStall (s : State) : Host.Outcome State Fault Refusal :=
  .next (State.inService s s fun s => s.onlyIf s.stallable fun s => s.stepFeed .pusherStall none)

/-- R32: REMEASURE advances to contact. -/
def State.seeksContact (s : State) : Bool := s.fsq.st == .remeasure && s.driving .main

/-- CONTACT_FOUND: R32. The encoder has been still for 200 ms. -/
def execContactFound (s : State) : Host.Outcome State Fault Refusal :=
  .next (State.inService s s fun s => s.onlyIf s.seeksContact fun s =>
    s.halt.onFsq fun f => { f with still := max f.still Config.contactMs })

/-! ## Pusher and cover switches (R27, R29, R168, R186) -/

/-- R29: HOMING is in its reverse part, which drives, or which a hit of the watch has interrupted at this sample. -/
def State.approaching (s : State) : Bool :=
  s.fsq.st == .homing &&
    match s.fsq.move with
    | some m => m.leg == .main && (m.phase == .driving || m.phase == .interrupted)
    | none => false

/-- R29, R186: HOME_SW has become active. The count is zeroed where the zero is armed, or was at the sample of the edge: a hit of
the watch by the encoder step of that sample keeps neither the zero back nor the end of the reverse part, which is the model's choice
(DESIGN CHOICE, assumption log 21). -/
def State.homeReached (s : State) : State :=
  s.onlyIf (s.sig.zeroArmed || s.sig.zeroDue) fun s =>
    let s := (s.onSig fun g => { g with zeroArmed := false, zeroDue := false }).onFsq fun f => { f with e := 0, pKnown := true }
    s.onlyIf s.approaching fun s => s.halt.onFsq fun f => { f with limit := none }

/-- R29: HOME_SW has become inactive: the forward part of HOMING ends and the reverse part follows. -/
def State.homeLeft (s : State) : State := s.onlyIf (s.fsq.st == .homing && s.driving .offSwitch) State.drive

/-- HOME_SW_EDGE: R23, R29, R186. -/
def execHomeSwEdge (level : Bool) (s : State) : Host.Outcome State Fault Refusal :=
  .next (State.inService s (s.setLevel .homeSw level) fun s => if level then s.homeReached else s.homeLeft)

/-- HOMING_LIMIT: R30. -/
def execHomingLimit (s : State) : Host.Outcome State Fault Refusal :=
  .next (State.inService s s fun s =>
    s.onlyIf (s.fsq.st == .homing && s.fsq.limit.isSome) fun s =>
      (s.onFsq fun f => { f with limit := none }).severe .homeFail none)

/-- R27: HOMING retracts or has no move, so that FWD_LIMIT is no fault. -/
def State.limitExempt (s : State) : Bool := s.fsq.st == .homing && (s.fsq.move.isNone || s.fsq.drives .rev)

/-- FWD_LIMIT_ACTIVE: R27. -/
def execFwdLimitActive (level : Bool) (s : State) : Host.Outcome State Fault Refusal :=
  .next (State.inService s (s.setLevel .fwdLimit level) fun s =>
    s.onlyIf (level && !s.limitExempt) fun s => s.severe .overtravel none)

/-- GUARD_OPEN: R168. GUARD is active while the cover is closed. -/
def execGuardOpen (level : Bool) (s : State) : Host.Outcome State Fault Refusal :=
  .next (State.inService s (s.setLevel .guard level) fun s =>
    s.onlyIf (!level) fun s => s.severe .guardOpen none)

/-! ## Loading (R33, R34) -/

/-- R33: the load check may be made, and the head it asks for. -/
def State.loadable (s : State) : Option BarRec :=
  if s.running && s.fsq.st == .noBar && !s.feedHeld && !s.holdLoading && !s.inp .channel then s.bac.rack.head? else none

/-- RACK_LOAD: R5, R33. -/
def execRackLoad (s : State) : Host.Outcome State Fault Refusal :=
  .next (match s.loadable with
    | some head =>
      State.after false s (if head.wrongType then s.stepFeed .wrongBar (some 1) else s.enter .loading)
    | none => s)

/-- ESCAPE_PULSE_END: R33, R187. -/
def execEscapePulseEnd (s : State) : Host.Outcome State Fault Refusal :=
  .next (s.onFsq fun f => { f with escape := none })

/-- CHANNEL_CHANGE: R21, R33, R34, R192. The engine takes the bar in LOADING. An active level that is the input's first
accepted one is the reading of the FOUND bar, which the settled inputs gave at the join. -/
def execChannelChange (level : Bool) (s : State) : Host.Outcome State Fault Refusal :=
  .next (State.inService s (s.setLevel .channel level) fun s' =>
    s'.onlyIf (level && (s.sig.filters[Input.channel.idx]).acc.isNone) State.foundBar)

/-- LOADING_LIMIT: R34. -/
def execLoadingLimit (s : State) : Host.Outcome State Fault Refusal :=
  .next (State.inService s s fun s =>
    s.onlyIf (s.fsq.st == .loading && s.fsq.limit.isSome) fun s => s.stepFeed .barNotSeen (some 1))

/-- SPINDLE_ENTRY_EDGE: R35, R179, R183. -/
def execSpindleEntryEdge (level : Bool) (s : State) : Host.Outcome State Fault Refusal :=
  .next (
    let s' := s.setLevel .spindleEntry level
    let s' := s'.onlyIf level fun s' => s'.onSig fun g => { g with spindleLatch := g.spindleLatch.or (some s'.fsq.e) }
    State.inService s s' id)

/-! ## Bar end (R42, R43, R38) -/

/-- R42: the bar-end wait is over. -/
def State.retractable (s : State) : Bool :=
  s.running && s.fsq.st == .barEnd && !s.feedHeld && s.fsq.begun && s.fsq.move.isNone && s.inp .colletOpen && s.trayRoom

/-- BAR_END_RETRACT: R42. -/
def execBarEndRetract (s : State) : Host.Outcome State Fault Refusal :=
  .next (if s.retractable then State.after false s (s.startMove .main .rev (some 0)) else s)

/-- EJECT_PULSE_END: R43, R187. -/
def execEjectPulseEnd (s : State) : Host.Outcome State Fault Refusal :=
  .next (s.onFsq fun f => { f with eject := none })

/-- REMNANT_EDGE: R43, R179. The engine takes the latch in EJECTING. -/
def execRemnantEdge (s : State) : Host.Outcome State Fault Refusal :=
  .next (State.inService s ((s.setLevel .remnant true).onSig fun g => { g with remnantLatch := true }) id)

/-- REMNANT_LIMIT: R43. -/
def execRemnantLimit (s : State) : Host.Outcome State Fault Refusal :=
  .next (State.inService s s fun s =>
    s.onlyIf (s.fsq.st == .ejecting && s.fsq.limit.isSome) fun s => s.stepFeed .barNotSeen (some 0))

/-- COLLET_LIMIT: R38. -/
def execColletLimit (s : State) : Host.Outcome State Fault Refusal :=
  .next (State.inService s s fun s =>
    s.onlyIf (s.fsq.st == .feeding && s.waiting && s.fsq.limit.isSome) fun s => s.stepFeed .colletNotOpen none)

end Sys2Proof.Machine
end

