-- ==== Sys2Proof/Machine/Unload.lean ====
section
/-! DEFINITION. The commands of the belt pulses, the catch and the drop (chapters 6 and 7). A belt pulse or a part sensor edge is
consumed as its latch is set (R179); before the join it only sets the latch. -/
namespace Sys2Proof.Machine

/-- INDEX_EDGE: R115, R116, R148, R184. -/
def execIndexEdge (s : State) : Host.Outcome State Fault Refusal :=
  .next (
    let s' := s.setLevel .index true
    if s.running then State.after false s s'.takeIndex else s'.onSig fun g => { g with indexLatch := true })

/-- HOME_EDGE: R115, R118, R120, R122, R184. -/
def execHomeEdge (s : State) : Host.Outcome State Fault Refusal :=
  .next (
    let s' := s.setLevel .home true
    if s.running then State.after false s s'.takeHome else s'.onSig fun g => { g with homeLatch := true })

/-- ADVANCE_WINDOW_END: R115, R121. -/
def execAdvanceWindowEnd (s : State) : Host.Outcome State Fault Refusal :=
  .next (State.inService s s State.closeWindow)

/-- HOME_HOLD_WINDOW_END: R115, R122. -/
def execHomeHoldWindowEnd (s : State) : Host.Outcome State Fault Refusal :=
  .next (State.inService s s fun s =>
    s.onlyIf s.blt.homeHeld.isSome fun s => (s.onBlt fun b => { b with homeHeld := none }).notice .beltSyncLost none)

/-- TRAY_BOTTOM_CHANGE: R149. The check for arming follows the change. -/
def execTrayBottomChange (level : Bool) (s : State) : Host.Outcome State Fault Refusal :=
  .next (State.inService s (s.setLevel .trayBottom level) id)

/-- FOUND_PART_RECORD: R136, R137. -/
def execFoundPartRecord (s : State) : Host.Outcome State Fault Refusal :=
  .next (if s.foundDue then State.after false s s.foundPart else s)

/-- R135: a tray entry edge ends the catch window with a record. -/
def State.trayCatch (s : State) : State :=
  match s.uns.catching with
  | some (r, _) =>
    s.onUns fun u => { u.addRecord (some r.lot) r.outcome.inTray r.stamp r.origin with catching := none }
  | none => s

/-- TRAY_ENTRY_EDGE: R135, R136. -/
def execTrayEntryEdge (s : State) : Host.Outcome State Fault Refusal :=
  .next (
    let s' := s.setLevel .trayEntry true
    if s.running then State.after false s s'.trayCatch else s'.onSig fun g => { g with trayLatch := true })

/-- R16, R135: a bin entry edge ends the catch window with a binned part. -/
def State.binCatch (s : State) : State :=
  match s.uns.catching with
  | some _ =>
    let s := s.onBac fun b => { b with bin := min s.cfg.binCap (b.bin + 1) }
    s.onUns fun u => { u with catching := none, caught := u.caught + 1, binned := u.binned + 1 }
  | none => s

/-- BIN_ENTRY_EDGE: R16, R135. -/
def execBinEntryEdge (s : State) : Host.Outcome State Fault Refusal :=
  .next (
    let s' := s.setLevel .binEntry true
    if s.running then State.after false s s'.binCatch else s'.onSig fun g => { g with binLatch := true })

/-- CATCH_WINDOW_END: R135. -/
def execCatchWindowEnd (s : State) : Host.Outcome State Fault Refusal :=
  .next (State.inService s s fun s =>
    s.onlyIf s.uns.catching.isSome fun s => (s.onUns fun u => { u with catching := none }).notice .partMissing none)

/-- GATE_TIME_END: R150. -/
def execGateTimeEnd (s : State) : Host.Outcome State Fault Refusal :=
  .next (s.onUns fun u => { u with gate := none })

/-- DROP_SENSE_EDGE: R151. -/
def execDropSenseEdge (s : State) : Host.Outcome State Fault Refusal :=
  .next (
    let s' := s.setLevel .dropSense true
    if s.running then State.after false s (s'.onlyIf s.uns.confirm.isSome fun s => s.endConfirm true)
    else s'.onSig fun g => { g with dropLatch := true })

/-- DROP_CONFIRMATION_TIMEOUT: R151. -/
def execDropConfirmationTimeout (s : State) : Host.Outcome State Fault Refusal :=
  .next (State.inService s s fun s => s.onlyIf s.uns.confirm.isSome fun s => s.endConfirm false)

end Sys2Proof.Machine
end

