-- ==== Sys2Proof/Machine/Rounds.lean ====
section
/-! DEFINITION. The peer table, the shuttle view, the dispatch rounds and the deliveries, with their timers (chapter 5), and the
forecast's one-second timer (R63). -/
namespace Sys2Proof.Machine

/-! ## The peer table (R95 to R97) -/

/-- R96: a good frame from this address sets the age of its record to 0. -/
def State.refreshAge (s : State) (addr : Nat) : State :=
  s.onPsr fun p => { p with peers := p.peers.map fun r => if r.addr == addr then { r with age := 0 } else r }

/-- Section 5.2: a record at its place in address order. -/
def insertPeer (r : Peer) : List Peer → List Peer
  | [] => [r]
  | x :: xs => if r.addr < x.addr then r :: x :: xs else x :: insertPeer r xs

/-- R95: the record a PRESENCE gives, where it passes the checks. -/
def presenceRecord (addr summary ds n status band barType trip : Nat) : Option Peer :=
  let fill := status % 8
  let needed := status / 128 % 2 == 1
  match Summary.ofCode summary with
  | none => none
  | some sum =>
    if (1 ≤ ds && ds ≤ 127) && (16 ≤ n && n ≤ 128) && fill ≤ 6 &&
        (!needed || (band ≤ 13 && (1 ≤ barType && barType ≤ 15) && (1 ≤ trip && trip ≤ 1023))) then
      some { addr := addr, age := 0, ds := ds, n := n, fill := fill, pressed := status / 16 % 2 == 1, summary := sum,
             need := if needed then some { band := band, barType := barType, trip := trip } else none }
    else none

/-- R95, R97: a taken PRESENCE. -/
def State.takePeer (s : State) (r : Peer) : State :=
  if s.psr.peers.any (·.addr == r.addr) then
    s.onPsr fun p => { p with peers := p.peers.map fun x => if x.addr == r.addr then r else x }
  else if s.psr.peers.length < Config.peerCapacity then
    s.onPsr fun p => { p with peers := insertPeer r p.peers }
  else s.onPsr fun p => { p with overflow := true }

/-- R96, R97: the record of an address is removed, and the overflow mark cleared. -/
def State.dropPeer (s : State) (addr : Nat) : State :=
  s.onPsr fun p => { p with peers := p.peers.filter (·.addr != addr), overflow := false }

/-! ## The dispatch state (R101 to R106) -/

/-- The dispatch state is set. -/
def State.setDispatch (s : State) (d : DispatchState) : State := s.onPsr fun p => { p with dispatch := d }

/-- R104: a miss. -/
def State.miss (s : State) : State :=
  let n := min 255 (s.psr.misses + 1)
  let s := (s.onPsr fun p => { p with misses := n }).notice .dispatchMiss none
  s.onlyIf (n == 3) fun s => s.notice .shuttleSilent none

/-- R101: the own DISPATCH is removed and the round is over for this station. -/
def State.leaveRound (s : State) : State := (s.removeTx .dispatch).setDispatch s.restState

/-- R103, R105: the shuttle is coming to this station. -/
def State.shuttleComes (s : State) : State :=
  let s := s.onPsr fun p => { p with dispTimer := none, misses := 0 }
  let s := s.onlyIf (s.psr.dispatch == .queued) fun s => s.removeTx .dispatch
  if s.bac.enRoute.isNone && s.bac.rack.length < 3 then
    (s.onBac fun b => { b with enRoute := some (s.newBar .shuttle) }).setDispatch .enRoute
  else (s.notice .rackOverfill none).setDispatch s.restState

/-- R103, R105: SHUTTLE BUSY naming self. -/
def State.busySelf (s : State) : State :=
  match s.psr.dispatch with
  | .enRoute => s.onPsr fun p => { p with misses := 0 }
  | .none | .waiting | .queued | .sent => s.shuttleComes

/-- R4: BAC drops the en-route record. -/
def State.dropEnRoute (s : State) : State := s.onBac fun b => { b with enRoute := none }

/-- R109, R110: a held early edge is taken as a manual bar. -/
def State.releaseEdge (s : State) : State :=
  s.onlyIf s.psr.earlyEdge.isSome fun s => (s.onPsr fun p => { p with earlyEdge := none }).manualBar

/-- R106: the trip has ended without a delivery. -/
def State.tripLost (s : State) : State :=
  s.onlyIf (s.psr.dispatch == .enRoute && s.psr.delivery.isNone) fun s =>
    ((s.dropEnRoute.notice .deliveryMissing none).releaseEdge).setDispatch s.restState

/-- R101, R103, R106: SHUTTLE BUSY naming another station. -/
def State.busyOther (s : State) : State :=
  match s.psr.dispatch with
  | .sent => ((s.onPsr fun p => { p with dispTimer := none }).miss).setDispatch s.restState
  | .queued => s.leaveRound
  | .enRoute => s.tripLost
  | .none | .waiting => s

/-- R101, R106: SHUTTLE IDLE. -/
def State.shuttleIdle (s : State) : State :=
  match s.psr.dispatch with
  | .waiting =>
    if s.alc.st = .active ∧ s.accepts then (s.request .dispatch).setDispatch .queued else s
  | .enRoute => s.tripLost
  | .none | .queued | .sent => s

/-! ## Delivery (R107 to R110) -/

/-- R4, R108: the delivery completes with this type. -/
def State.deliver (s : State) (t : Nat) : State :=
  let s := s.onPsr fun p => { p with delivery := none, earlyEdge := none }
  let s := match s.bac.enRoute with
    | some b =>
      let b' : BarRec :=
        { b with barType := some t, verified := true, wrongType := wrongTypeOf s.mpt.job (some t) }
      s.onBac fun c => { c with enRoute := none, rack := c.rack ++ [b'] }
    | none => s
  s.setDispatch s.restState

/-- R107: SHUTTLE DELIVERED naming self. -/
def State.delivered (s : State) (t : Nat) : State :=
  if s.psr.dispatch = .enRoute then
    if s.psr.earlyEdge.isSome then s.deliver t
    else s.onPsr fun p => { p with delivery := some (t, (p.delivery.map (·.2)).getD Config.deliveryMs) }
  else s

/-- R107, R109, R110: a rack entry edge. -/
def State.rackEdge (s : State) : State :=
  if s.psr.dispatch = .enRoute then
    match s.psr.delivery with
    | some d => s.deliver d.1
    | none =>
      if s.psr.earlyEdge.isNone then s.onPsr fun p => { p with earlyEdge := some Config.deliveryMs } else s.manualBar
  else s.manualBar

/-- R111: a stock-out report naming self, under a job. -/
def State.stockOut (s : State) (j : Job) : State :=
  let l := s.learnedOf j.barType
  let s := s.onBac fun b => { b with learned := setType b.learned j.barType { l with hold := Config.stockOutHoldS } }
  let s := s.notice .stockOut none
  match s.psr.dispatch with
  | .sent => (s.onPsr fun p => { p with dispTimer := none }).setDispatch s.restState
  | .enRoute => ((s.dropEnRoute.onPsr fun p => { p with delivery := none }).releaseEdge).setDispatch s.restState
  | .none | .waiting | .queued => s

/-! ## Rows of the rack entry and of the timers -/

/-- RACK_ENTRY_EDGE: R107, R109, R110, R179. -/
def execRackEntryEdge (s : State) : Host.Outcome State Fault Refusal :=
  .next (
    let s' := s.setLevel .rackEntry true
    if s.running then State.after false s s'.rackEdge else s'.onSig fun g => { g with rackLatch := true })

/-- DISPATCH_TIMER_EXPIRY: R103, R104. -/
def execDispatchTimerExpiry (s : State) : Host.Outcome State Fault Refusal :=
  .next (State.inService s s fun s =>
    s.onlyIf (s.psr.dispatch == .sent && s.psr.dispTimer.isSome) fun s =>
      ((s.onPsr fun p => { p with dispTimer := none }).miss).setDispatch s.restState)

/-- DELIVERY_WINDOW_END: R107. -/
def execDeliveryWindowEnd (s : State) : Host.Outcome State Fault Refusal :=
  .next (State.inService s s fun s =>
    s.onlyIf s.psr.delivery.isSome fun s =>
      ((s.onPsr fun p => { p with delivery := none }).dropEnRoute.notice .deliveryMissing none).setDispatch s.restState)

/-- EARLY_EDGE_WINDOW_END: R109, R110. -/
def execEarlyEdgeWindowEnd (s : State) : Host.Outcome State Fault Refusal :=
  .next (State.inService s s State.releaseEdge)

/-- R96, R97: the records a second older, and those of age 4 removed with it; a removal clears the overflow mark. -/
def Psr.ageRecords (p : Psr) : Psr :=
  let aged := p.peers.map fun r => { r with age := r.age + 1 }
  { p with peers := aged.filter (·.age < 4), overflow := p.overflow && aged.all (·.age < 4) }

/-- R96, R99, R111: one second passes for the peer records, the shuttle view and the stock-out holds. -/
def State.psrSecond (s : State) : State :=
  let s := s.onPsr fun p => { p.ageRecords with
    second := some Config.oneSecondMs
    shuttle := match p.shuttle with
      | .busy st t r => .busy st t (r - 1)
      | .absent => .absent
      | .idle => .idle
      | .fault k st => .fault k st
    shuttleAge := min 65535 (p.shuttleAge + 1) }
  s.onBac fun b => { b with learned := mapTable (fun l => { l with hold := l.hold - 1 }) b.learned }

/-- PSR_ONE_SECOND_TIMER: R93, R96, R99, R111. -/
def execPsrOneSecondTimer (s : State) : Host.Outcome State Fault Refusal :=
  .next (State.inService s s fun s => s.psrSecond.request .presence)

/-- PEER_RECORD_EXPIRY: R96, R97. A record's age reaches 4 in the one-second expiry, which removes it; sent by itself, the row
removes a record that this expiry would (assumption log 9). -/
def execPeerRecordExpiry (addr : LineAddr) (s : State) : Host.Outcome State Fault Refusal :=
  .next (State.inService s s fun s =>
    s.onlyIf (s.psr.peers.any fun r => r.addr == addr.toNat && 3 ≤ r.age) fun s => s.dropPeer addr.toNat)

/-- STOCK_OUT_HOLD_END: R111. -/
def execStockOutHoldEnd (barType : Byte) (s : State) : Host.Outcome State Fault Refusal :=
  .next (State.inService s s fun s =>
    let l := s.learnedOf barType.toNat
    s.onlyIf (l.hold ≤ 1) fun s =>
      s.onBac fun b => { b with learned := setType b.learned barType.toNat { l with hold := 0 } })

/-- SFC_ONE_SECOND_TIMER: R63. -/
def execSfcOneSecondTimer (s : State) : Host.Outcome State Fault Refusal :=
  .next (if s.running then
      State.after true s (s.onSfc fun f => { f with second := some Config.oneSecondMs })
    else s)

end Sys2Proof.Machine
end

