-- ==== Sys2Proof/Machine/Telegrams.lean ====
section
/-! DEFINITION. The aisle line: starts, lost and failed attempts, unreadable frames, the line timers, good frames of peers and of
the shuttle and the own frames that complete (chapter 4, R78, R222). A received frame is decided at the end of its objection
window, and its command carries what the frame held. -/
namespace Sys2Proof.Machine

/-! ## Own frames (R74, R75, R77, R79, R87 to R89) -/

/-- R88: the owner's revalidation of one entry: none where the entry is removed. -/
def State.revalidate (s : State) (e : TxEntry) : Option TxEntry :=
  let keep : Bool :=
    match e.kind with
    | .drop .. | .release _ | .presence => true
    | .claim p =>
      match s.arrival p with
      | some a => s.cfg.lmin ≤ a && a ≤ s.cfg.lmax && s.entryAt p == .free
      | none => false
    | .dispatch => s.psr.dispatch == .queued
  if keep then some { e with value := s.valueOf e.kind, payload := s.payloadOf e.kind } else none

/-- R88: the queue revalidated, in the order of the new values. -/
def State.revalidated (s : State) : List TxEntry :=
  (s.alc.queue.filterMap s.revalidate).foldl (fun q e => insertEntry e q) []

/-- R88: the kinds that revalidation removes. -/
def State.invalid (s : State) : List TxKind :=
  (s.alc.queue.filter fun e => (s.revalidate e).isNone).map (·.kind)

/-- R83: the head is in flight. -/
def startHead : List TxEntry → List TxEntry
  | [] => []
  | e :: es => { e with inFlight := true } :: es

/-- R67, R70, R83: the frame of the head starts on ALN_TX, and the station reads its own bits back. -/
def LineUnit.start (u : LineUnit) (queue : List TxEntry) : LineUnit :=
  match queue with
  | [] => u
  | e :: _ => { u with tx := e.frame.bits, rx := .reading [] .plain }

/-- R88: the revalidation and the start of the head. -/
def State.startFrame (s : State) : State :=
  let queue := s.revalidated
  let gone := s.invalid
  let s := s.onAlc fun a => { a with queue := startHead queue, unit := a.unit.start queue }
  gone.foldl (fun s k => s.tellUnsent k) s

/-- TRANSMIT_START: R72, R83, R86 to R88. An idle gap has ended. -/
def execTransmitStart (s : State) : Host.Outcome State Fault Refusal :=
  .next (State.inService s s fun s =>
    s.onlyIf (s.alc.st == .active && s.alc.flying.isNone && !s.alc.queue.isEmpty) fun s =>
      (s.onAlc fun a => { a with waitGap := false }).startFrame)

/-- R89: the attempt of an entry its owner has asked to remove has ended without completing. -/
def State.attemptOver (s : State) (e : TxEntry) : State := (s.onAlc Alc.land).tellUnsent e.kind

/-- ARBITRATION_LOST: R74, R87, R89. The station stops driving and goes on reading the frame it has lost to. -/
def execArbitrationLost (s : State) : Host.Outcome State Fault Refusal :=
  .next (State.inService s s fun s =>
    match s.alc.flying with
    | none => s
    | some e =>
      let s := s.onAlc Alc.release
      if e.again then s.onAlc fun a => a.keep 0
      else if e.leaving then s.attemptOver e
      else s.onAlc fun a => a.keep e.fails)

/-- R79: the discard of the telegram in flight. -/
def State.discard (s : State) (e : TxEntry) : State :=
  let n := s.alc.consecutive + 1
  let s := s.onAlc fun a => { a.land with discards := a.discards + 1, consecutive := n }
  let s := (s.notice .lineDiscard none).tellUnsent e.kind
  s.onlyIf (Config.discardLimit ≤ n) State.withdraw

/-- ATTEMPT_FAILED: R75, R77, R79, R85, R87, R89. The station stops driving, and goes on reading the frame it has abandoned. -/
def execAttemptFailed (s : State) : Host.Outcome State Fault Refusal :=
  .next (State.inService s s fun s =>
    match s.alc.flying with
    | none => s
    | some e =>
      let s := s.onAlc fun a => { a with unit := a.unit.abandon }
      if e.leaving && !e.again then s.attemptOver e
      else
        let s := s.onAlc fun a => { a with failed := a.failed + 1 }
        if e.again then s.onAlc fun a => a.keep 0
        else if Config.attemptLimit ≤ e.fails + 1 then s.discard e
        else s.onAlc fun a => a.keep (e.fails + 1))

/-- R80: a good frame. -/
def State.goodHeard (s : State) : State := s.onAlc fun a => { a with ownObj := 0, mute := false }

/-- R77 to R79, R87: the own frame in flight, of a kind for which `f` answers, has completed. -/
def State.completed (s : State) (f : TxKind → Option (State → State)) : State :=
  match s.alc.flying with
  | none => s
  | some e =>
    match f e.kind with
    | none => s
    | some owner =>
      let s := s.onAlc fun a =>
        { (if e.again then a.keep 0 else a.land) with consecutive := 0, unit := LineUnit.quiet }
      owner s.goodHeard

/-- OWN_CLAIM_COMPLETED: R124, R127, R147. -/
def execOwnClaimCompleted (s : State) : Host.Outcome State Fault Refusal :=
  .next (State.inService s s fun s => s.completed fun k =>
    match k with
    | .claim p => some fun s => (s.beltClaim p s.own).claimSent p
    | .drop .. | .release _ | .dispatch | .presence => none)

/-- OWN_DROP_COMPLETED: R125, R152. -/
def execOwnDropCompleted (s : State) : Host.Outcome State Fault Refusal :=
  .next (State.inService s s fun s => s.completed fun k =>
    match k with
    | .drop p m n => some fun s => (s.beltDrop p s.own m n).unsent (.drop p m n)
    | .claim _ | .release _ | .dispatch | .presence => none)

/-- OWN_RELEASE_COMPLETED: R126, R152. -/
def execOwnReleaseCompleted (s : State) : Host.Outcome State Fault Refusal :=
  .next (State.inService s s fun s => s.completed fun k =>
    match k with
    | .release p => some fun s => (s.beltRelease p s.own).unsent (.release p)
    | .claim _ | .drop .. | .dispatch | .presence => none)

/-- OWN_DISPATCH_COMPLETED: R102. -/
def execOwnDispatchCompleted (s : State) : Host.Outcome State Fault Refusal :=
  .next (State.inService s s fun s => s.completed fun k =>
    match k with
    | .dispatch => some fun s =>
      s.onPsr fun p => { p with dispatch := .sent, dispTimer := some Config.dispatchTimerMs }
    | .claim _ | .drop .. | .release _ | .presence => none)

/-- OWN_PRESENCE_COMPLETED: R87, R93. -/
def execOwnPresenceCompleted (s : State) : Host.Outcome State Fault Refusal :=
  .next (State.inService s s fun s => s.completed fun k =>
    match k with
    | .presence => some id
    | .claim _ | .drop .. | .release _ | .dispatch => none)

/-! ## Unreadable frames (R72, R76, R80, R81) -/

/-- R72, R82: ALC takes start bits. -/
def State.hears (s : State) : Bool := s.running && s.alc.st != .off && !s.alc.waitGap

/-- R76: the station objects to a frame of this class whose start bit fell in its present line state. -/
def State.objects (s : State) (cls : BitVec 3) (fromWithdrawn : Bool) : Bool :=
  (s.alc.st == .listening || s.alc.st == .active) && !s.alc.mute && !fromWithdrawn && cls.toNat < 5

/-- R76, R80: an objection is made: its bits are driven from the next bit on. -/
def Alc.object (a : Alc) (flaw : FrameFlaw) : Alc :=
  let n := min 8 (a.ownObj + 1)
  { a with ownObj := n, mute := a.mute || n == 8, objections := a.objections + 1
           unit := { a.unit with tx := objectionBits flaw a.unit.rx } }

/-- UNREADABLE_FRAME: R76, R80, R81. -/
def execUnreadableFrame (cls : BitVec 3) (flaw : FrameFlaw) (fromWithdrawn : Bool) (s : State) :
    Host.Outcome State Fault Refusal :=
  .next (State.inService s s fun s =>
    s.onlyIf (s.hears && cls.toNat < 5) fun s =>
      if s.objects cls fromWithdrawn then s.onAlc fun a => a.object flaw else s.viewDoubt)

/-- LISTENING_TIMER_END: R83. -/
def execListeningTimerEnd (s : State) : Host.Outcome State Fault Refusal :=
  .next (State.inService s s fun s =>
    s.onlyIf (s.alc.st == .listening && s.alc.timer.isSome) fun s =>
      s.onAlc fun a => { a with st := .active, timer := none })

/-- WITHDRAWN_TIMER_END: R84. -/
def execWithdrawnTimerEnd (s : State) : Host.Outcome State Fault Refusal :=
  .next (State.inService s s fun s =>
    s.onlyIf (s.alc.st == .withdrawn && s.alc.timer.isSome) fun s =>
      s.onAlc fun a => { a with st := .listening, timer := some Config.lineTimerMs })

/-- RECESSIVE_BITS_SEEN: R72. -/
def execRecessiveBitsSeen (s : State) : Host.Outcome State Fault Refusal :=
  .next (s.onAlc fun a => { a with waitGap := false })

/-! ## Good frames of others (R78, R85) -/

/-- R78: a good frame of classes 0, 1, 2 and 4: the address clash check, the peer's age, and the owners where the sender is a
station. -/
def State.heard (s : State) (sender : LineAddr) (owners : State → State) : State :=
  if s.hears then
    let s := s.goodHeard
    if sender.toNat = s.own then s.clash
    else if sender = 0 ∨ sender = 63 then s
    else owners (s.refreshAge sender.toNat)
  else s

/-- A good frame heard, and what follows it. -/
def State.receives (s : State) (force : Bool) (f : State → State) : State :=
  if s.running then State.after force s (f s) else s

/-- CLAIM: R124, R146. -/
def execClaim (sender : LineAddr) (pocket : Byte) (s : State) : Host.Outcome State Fault Refusal :=
  .next (s.receives false fun s => s.heard sender fun s => s.beltClaim pocket.toNat sender.toNat)

/-- DROP: R123, R125. -/
def execDrop (sender : LineAddr) (pocket mark : Byte) (seq : Word16) (s : State) : Host.Outcome State Fault Refusal :=
  .next (s.receives false fun s => s.heard sender fun s =>
    match Mark.ofCode mark.toNat with
    | some m => s.beltDrop pocket.toNat sender.toNat m seq
    | none => s)

/-- RELEASE: R126. -/
def execRelease (sender : LineAddr) (pocket : Byte) (s : State) : Host.Outcome State Fault Refusal :=
  .next (s.receives false fun s => s.heard sender fun s => s.beltRelease pocket.toNat sender.toNat)

/-- DISPATCH: R101. The fields are read by no one. -/
def execDispatch (sender : LineAddr) (_band _barType : Byte) (_trip : Word16) (s : State) :
    Host.Outcome State Fault Refusal :=
  .next (s.receives false fun s => s.heard sender fun s => s.onlyIf (s.psr.dispatch == .queued) State.leaveRound)

/-- PRESENCE: R95 to R97. -/
def execPresence (sender : LineAddr) (summary ds n status band barType : Byte) (trip : Word16) (s : State) :
    Host.Outcome State Fault Refusal :=
  .next (s.receives false fun s => s.heard sender fun s =>
    match presenceRecord sender.toNat summary.toNat ds.toNat n.toNat status.toNat band.toNat barType.toNat trip.toNat with
    | some r => s.takePeer r
    | none => s)

/-! ## Telegrams of the shuttle (R98) -/

/-- R98: a good class 3 telegram from address 63; `taken` says that its fields lie in their ranges. -/
def State.fromShuttle (s : State) (taken : Bool) (f : State → State) : State :=
  if s.running then
    if s.hears then
      let s' := s.goodHeard.onPsr fun p => { p with shuttleAge := 0 }
      State.after taken s (s'.onlyIf taken f)
    else s
  else s

/-- R98: the shuttle view. -/
def State.setShuttle (s : State) (v : ShuttleState) : State := s.onPsr fun p => { p with shuttle := v }

/-- Section 5.3: a station number from 1 to 62. -/
def stationInRange (n : Nat) : Bool := 1 ≤ n && n ≤ 62

/-- A bar type from 1 to 15. -/
def typeInRange (n : Nat) : Bool := 1 ≤ n && n ≤ 15

/-- SHUTTLE_IDLE: R98, R101, R106. -/
def execShuttleIdle (s : State) : Host.Outcome State Fault Refusal :=
  .next (s.fromShuttle true fun s => (s.setShuttle .idle).shuttleIdle)

/-- SHUTTLE_BUSY: R98, R103, R105, R106. -/
def execShuttleBusy (station barType : Byte) (remaining : Word16) (s : State) : Host.Outcome State Fault Refusal :=
  .next (s.fromShuttle (stationInRange station.toNat && typeInRange barType.toNat) fun s =>
    let s := s.setShuttle (.busy station.toNat barType.toNat remaining.toNat)
    if station.toNat = s.own then s.busySelf else s.busyOther)

/-- SHUTTLE_DELIVERED: R98, R107. -/
def execShuttleDelivered (station barType : Byte) (s : State) : Host.Outcome State Fault Refusal :=
  .next (s.fromShuttle (stationInRange station.toNat && typeInRange barType.toNat) fun s =>
    if station.toNat = s.own then s.delivered barType.toNat else s)

/-- Section 12.1: the fault kind of a code. -/
def ShuttleFaultKind.ofCode : Nat → Option ShuttleFaultKind
  | 1 => some .laneEmpty
  | 2 => some .stopped
  | _ => none

/-- R111: what a SHUTTLE FAULT does besides the view. -/
def State.shuttleFault (s : State) (k : ShuttleFaultKind) (station : Nat) : State :=
  match k, s.mpt.job with
  | .laneEmpty, some j => if station = s.own then s.stockOut j else s
  | .laneEmpty, none => s
  | .stopped, _ => s

/-- SHUTTLE_FAULT: R98, R111. -/
def execShuttleFault (kind station : Byte) (s : State) : Host.Outcome State Fault Refusal :=
  .next (match ShuttleFaultKind.ofCode kind.toNat with
    | some k =>
      s.fromShuttle (station.toNat ≤ 62) fun s =>
        (s.setShuttle (.fault k station.toNat)).shuttleFault k station.toNat
    | none => s.fromShuttle false id)

/-- R222: a class 3 payload of an unknown kind reaches the peer table and shuttle rounds. -/
def unknownKind (payload : List Byte) : Bool :=
  match payload.head? with
  | some k => k.toNat = 0 || 4 < k.toNat
  | none => false

/-- GOOD_FRAME_NO_OWNER: R78, R85, R222. -/
def execGoodFrameNoOwner (cls : BitVec 3) (sender : LineAddr) (payload : List Byte) (s : State) :
    Host.Outcome State Fault Refusal :=
  .next (
    if cls = 3 ∧ sender = 63 ∧ unknownKind payload then s.fromShuttle false id
    else s.receives false fun s => s.heard sender id)

end Sys2Proof.Machine
end

