-- ==== Sys2Proof/Machine/Tick.lean ====
section
/-! DEFINITION. What the station does with no command waiting: the commands that its own state has made due, and otherwise one
bit time of the aisle line or one millisecond: the sample instant of the inputs and outputs, the timers and the clocks (R52,
R67, R72 to R77, R176, R177, R187, R192, R197, R214; assumption logs 1 and 30). -/
namespace Sys2Proof.Machine

/-! ## Commands that stand due -/

/-- The command, where its condition holds. -/
def dueIf (c : Bool) (i : Instr) : List Instr := if c then [i] else []

/-- R192: the accepted levels, where every input has one. -/
def State.settledLevels (s : State) : Option InputBits :=
  if s.sig.filters.toList.all (·.acc.isSome) then
    some (Input.all.foldl (fun w i => setBit w i.idx (s.inp i)) 0)
  else none

/-- R192: which inputs have settled. -/
def State.settledMask (s : State) : InputBits :=
  Input.all.foldl (fun w i => setBit w i.idx (s.sig.filters[i.idx]).acc.isSome) 0

/-- R192: the accepted levels, an unsettled input as inactive. -/
def State.levels (s : State) : InputBits := Input.all.foldl (fun w i => setBit w i.idx (s.inp i)) 0

/-- R192, R214, R215, R218: what stands due before the join. -/
def State.dueStart (s : State) : List Instr :=
  match s.stu.phase with
  | .straps =>
    match s.stu.strapLast with
    | some a =>
      if 4 ≤ s.stu.strapRun then [.addressStrapsRead a] else dueIf (Config.strapsMs ≤ s.stu.strapMs) .strapsTimeout
    | none => []
  | .reading => dueIf (s.stu.retry == some 0) .configRetryWaitEnd
  | .settling =>
    match s.settledLevels with
    | some w => [.join w]
    | none => dueIf (s.sig.settling == some 0) (.settleTimeout s.settledMask s.levels)
  | .unconfigured =>
    match s.stu.load with
    | some l => dueIf (l.timer == some 0) .configPageTimeout
    | none => []
  | .running => []

/-- R24, R41: the encoder has been still long enough for a coasting move or for a cut that waits. -/
def State.settleDue (s : State) : Bool :=
  ((s.fsq.st == .cutting && s.fsq.cutWait.isSome) || (s.coasting && (!s.feedHeld || s.skipEnds))) && Config.settleMs ≤ s.fsq.still

/-- The feed sequencer's commands that stand due. -/
def State.dueFeed (s : State) : List Instr :=
  dueIf s.servable.isSome .feedServe ++
  dueIf s.settleDue .moveSettled ++
  dueIf (s.stallable && Config.stallMs ≤ s.fsq.quiet) .pusherStall ++
  dueIf (s.seeksContact && Config.contactMs ≤ s.fsq.quiet) .contactFound ++
  dueIf (s.fsq.st == .homing && s.fsq.limit == some 0) .homingLimit ++
  dueIf s.loadable.isSome .rackLoad ++
  dueIf (s.fsq.escape == some 0) .escapePulseEnd ++
  dueIf (s.fsq.st == .loading && s.fsq.limit == some 0) .loadingLimit ++
  dueIf s.retractable .barEndRetract ++
  dueIf (s.fsq.eject == some 0) .ejectPulseEnd ++
  dueIf (s.fsq.st == .ejecting && s.fsq.limit == some 0) .remnantLimit ++
  dueIf (s.fsq.st == .feeding && s.waiting && s.fsq.limit == some 0) .colletLimit

/-- The commands of belt, catch and drop that stand due. -/
def State.dueUnload (s : State) : List Instr :=
  dueIf (match s.blt.advance with
    | some w => w.left == 0
    | none => false) .advanceWindowEnd ++
  dueIf (s.blt.homeHeld == some 0) .homeHoldWindowEnd ++
  dueIf s.foundDue .foundPartRecord ++
  dueIf (match s.uns.catching with
    | some c => c.2 == 0
    | none => false) .catchWindowEnd ++
  dueIf (s.uns.gate == some 0) .gateTimeEnd ++
  dueIf (s.uns.confirm == some 0) .dropConfirmationTimeout

/-- R72, R83: an idle gap is complete in ACTIVE, with nothing driven or received and the transmit queue not empty. -/
def State.startDue (s : State) : Bool :=
  s.alc.st == .active && gapBits ≤ s.alc.unit.gap && s.alc.unit.tx.isEmpty && s.alc.flying.isNone && !s.alc.queue.isEmpty &&
    match s.alc.unit.rx with
    | .free _ => true
    | .reading _ _ | .passing _ _ => false

/-- The commands of line and rounds that stand due. -/
def State.dueRounds (s : State) : List Instr :=
  dueIf (s.alc.st == .listening && s.alc.timer == some 0) .listeningTimerEnd ++
  dueIf (s.alc.st == .withdrawn && s.alc.timer == some 0) .withdrawnTimerEnd ++
  dueIf (s.psr.dispatch == .sent && s.psr.dispTimer == some 0) .dispatchTimerExpiry ++
  dueIf (match s.psr.delivery with
    | some d => d.2 == 0
    | none => false) .deliveryWindowEnd ++
  dueIf (s.psr.earlyEdge == some 0) .earlyEdgeWindowEnd ++
  dueIf (s.psr.second == some 0) .psrOneSecondTimer ++
  dueIf (s.sfc.second == some 0) .sfcOneSecondTimer ++
  dueIf s.startDue .transmitStart

/-- R198: the response stands ready to be placed. -/
def Mpt.responseDue (m : Mpt) : Bool :=
  match m.buffer with
  | .pending (some _) => true
  | .pending none | .empty | .ready _ => false

/-- Every command that the station's own state has made due. -/
def State.due (s : State) : List Instr :=
  dueIf s.mpt.responseDue .responsePlaced ++ s.dueStart ++
    (if s.running then s.dueFeed ++ s.dueUnload ++ s.dueRounds else [])

/-! ## The sample instant (R176, R177, R192) -/

/-- R177: the filter length of an input. -/
def Cfg.filterLen (c : Cfg) (i : Input) : Nat :=
  match i with
  | .feedReq | .cutDone | .colletOpen | .outcomeA | .outcomeB | .setupKey => c.filterK[0]
  | .homeSw | .fwdLimit | .guard => c.filterK[1]
  | .channel | .spindleEntry | .rackEntry | .remnant => c.filterK[2]
  | .trayBottom | .trayEntry | .binEntry | .dropSense => c.filterK[3]
  | .index | .home | .encA | .encB => 2

/-- R176, R192: one sample of a filter of length `k`, the sample before it being `prev`: the filter, and the level it
accepts at this sample. -/
def Filter.sample (f : Filter) (k : Nat) (prev now : Bool) : Filter × Option Bool :=
  match f.acc with
  | some a =>
    if now = a then ({ f with run := 0 }, none)
    else if f.run + 1 < k then ({ f with run := f.run + 1 }, none)
    else ({ acc := some now, run := 0 }, some now)
  | none =>
    let run := if f.run = 0 ∨ now ≠ prev then 1 else f.run + 1
    if run < k then ({ f with run := run }, none) else ({ acc := some now, run := 0 }, some now)

/-- R176: the logical sample of an input at these pin levels. -/
def State.logical (s : State) (pins : InputBits) (i : Input) : Bool := pins.getLsbD i.idx ^^ s.cfg.inverted i

/-- The command of an accepted edge to this level, where the edge is an event (R178, R179). -/
def edgeCommand (i : Input) (level : Bool) : Option Instr :=
  match i, level with
  | .feedReq, true => some .feedReqRaised
  | .feedReq, false => some .feedReqDropped
  | .cutDone, true => some .cutDoneEdge
  | .colletOpen, true => some .colletOpenAsserted
  | .colletOpen, false => some .colletOpenDropped
  | .homeSw, l => some (.homeSwEdge l)
  | .fwdLimit, l => some (.fwdLimitActive l)
  | .guard, l => some (.guardOpen l)
  | .channel, l => some (.channelChange l)
  | .spindleEntry, l => some (.spindleEntryEdge l)
  | .trayBottom, l => some (.trayBottomChange l)
  | .rackEntry, true => some .rackEntryEdge
  | .remnant, true => some .remnantEdge
  | .trayEntry, true => some .trayEntryEdge
  | .binEntry, true => some .binEntryEdge
  | .dropSense, true => some .dropSenseEdge
  | .index, true => some .indexEdge
  | .home, true => some .homeEdge
  | .cutDone, false | .rackEntry, false | .remnant, false | .trayEntry, false | .binEntry, false | .dropSense, false
  | .index, false | .home, false | .outcomeA, _ | .outcomeB, _ | .setupKey, _ | .encA, _ | .encB, _ => none

/-- R192: a first accepted level is reported as a level. Where the owner of a level input has read it as inactive, an active
first level is a change to it. -/
def firstCommand (running : Bool) (i : Input) (level : Bool) : Option Instr :=
  match i with
  | .feedReq | .colletOpen | .fwdLimit | .channel | .trayBottom =>
    if running && level then edgeCommand i true else none
  | .cutDone | .outcomeA | .outcomeB | .setupKey | .homeSw | .guard | .spindleEntry | .rackEntry | .remnant
  | .trayEntry | .binEntry | .dropSense | .index | .home | .encA | .encB => none

/-- R176: the filters after the sample, each with the level it accepts. -/
def State.sampled (s : State) (pins : InputBits) : Vector (Filter × Option Bool) 21 :=
  Vector.ofFn fun n =>
    let i := (Input.all[n.val]?).getD .feedReq
    (s.sig.filters[n]).sample (s.cfg.filterLen i) (s.logical s.sig.pins.pins i) (s.logical pins i)

/-- R192: the filters that the sample leaves. A first accepted level that its owner is told of is accepted when the owner takes
it, so that the owner sees that it is the first. -/
def State.settled (s : State) (v : Vector (Filter × Option Bool) 21) : Vector Filter 21 :=
  Vector.ofFn fun n =>
    let i := (Input.all[n.val]?).getD .feedReq
    let told := (v[n].2.bind fun l => firstCommand s.running i l).isSome
    if (s.sig.filters[n]).acc.isNone && told then s.sig.filters[n] else v[n].1

/-- R185: the encoder pair after the sample, where a phase has changed and both phases have a level. -/
def encoderCommand (v : Vector (Filter × Option Bool) 21) : List Instr :=
  match v[19].1.acc, v[20].1.acc with
  | some a, some b => dueIf (v[19].2.isSome || v[20].2.isSome) (.encoderEdge a b)
  | _, _ => []

/-- The commands of the edges accepted at this sample: encoder, home switch, then the inputs in the order of their tables. -/
def State.edges (s : State) (v : Vector (Filter × Option Bool) 21) : List Instr :=
  let one (i : Input) : List Instr :=
    match (v[i.idx]).2 with
    | none => []
    | some l =>
      ((if (s.sig.filters[i.idx]).acc.isSome then edgeCommand i l else firstCommand s.running i l)).toList
  encoderCommand v ++ one .homeSw ++ (Input.all.filter (· != .homeSw)).flatMap one

/-- R186: the sample at which the rising edge of HOME_SW is accepted finds the home zero armed. -/
def State.zeroes (s : State) (v : Vector (Filter × Option Bool) 21) : Bool :=
  s.sig.zeroArmed && (s.sig.filters[Input.homeSw.idx]).acc.isSome && (v[Input.homeSw.idx]).2 == some true

/-! ## Timers and clocks -/

/-- A running timer loses a millisecond. -/
def tickDown (t : Option Nat) : Option Nat := t.map (· - 1)

/-- R52: the cut clock counts whole TU. -/
def Sfc.tick (f : Sfc) : Sfc :=
  let f := { f with second := tickDown f.second }
  match f.cutClock with
  | none => f
  | some c =>
    if f.cutSub + 1 < 10 then { f with cutSub := f.cutSub + 1 }
    else { f with cutSub := 0, cutClock := some (min Config.cutClockTop (c + 1)) }

/-- R24, R26, R32, R28: stillness and limits of the feed sequencer. -/
def Fsq.tick (f : Fsq) : Fsq :=
  { f with
    limit := tickDown f.limit, escape := tickDown f.escape, eject := tickDown f.eject
    still := min Config.stallMs (f.still + 1), quiet := min Config.stallMs (f.quiet + 1) }

/-- R136, R134, R150, R151: the seconds count while the station runs, and the windows. -/
def Uns.tick (u : Uns) (running : Bool) : Uns :=
  let u := { u with
    gate := tickDown u.gate, confirm := tickDown u.confirm, catching := u.catching.map fun c => (c.1, c.2 - 1) }
  if !running then u
  else if u.secSub + 1 < 1000 then { u with secSub := u.secSub + 1 }
  else { u with secSub := 0, seconds := u.seconds + 1 }

/-- R214, R215, R218: the counts of the start-up unit. -/
def Stu.tick (u : Stu) (straps : LineAddr) : Stu :=
  let u := { u with
    retry := tickDown u.retry, load := u.load.map fun l => { l with timer := tickDown l.timer } }
  if u.phase = .straps then
    { u with
      strapMs := u.strapMs + 1, strapLast := some straps
      strapRun := if u.strapLast = some straps then u.strapRun + 1 else 1 }
  else u

/-- R115: the pairing windows. -/
def Blt.tick (b : Blt) : Blt :=
  { b with advance := b.advance.map fun w => { w with left := w.left - 1 }, homeHeld := tickDown b.homeHeld }

/-- Chapter 5: the timers of the rounds. -/
def Psr.tick (p : Psr) : Psr :=
  { p with
    dispTimer := tickDown p.dispTimer, delivery := p.delivery.map fun d => (d.1, d.2 - 1)
    earlyEdge := tickDown p.earlyEdge, second := tickDown p.second }

/-- R197: what a sample instant makes of the machine port, where the world says how CS_N stands. -/
def Mpt.tick (m : Mpt) (csLow : Option Bool) : Mpt :=
  match csLow with
  | some low => m.select low
  | none => m

/-- One millisecond: the next sample, or the pins as they are where none is given, the filters, timers and clocks; the output
pins take the states formed from the state before; the accepted edges become the commands waiting. -/
def State.tick (s : State) : State :=
  let given := s.samples.head?
  let next := (given.map (·.pins)).getD s.sig.pins
  let v := s.sampled next.pins
  let running := s.running
  { s with
    sig := { s.sig with
      filters := s.settled v, pins := next, outPins := s.formedPins, settling := tickDown s.sig.settling
      zeroDue := s.zeroes v }
    fsq := s.fsq.tick
    sfc := s.sfc.tick
    alc := { s.alc with timer := tickDown s.alc.timer }
    psr := s.psr.tick
    blt := s.blt.tick
    uns := s.uns.tick running
    mpt := s.mpt.tick (given.map (·.csLow))
    stu := s.stu.tick next.straps
    samples := s.samples.tail
    bits := (given.map (·.line)).getD []
    pending := s.edges v }

/-! ## One bit time of the aisle line (R67, R72 to R77) -/

/-- The row of an own frame that has completed. -/
def TxKind.completion : TxKind → Instr
  | .claim _ => .ownClaimCompleted
  | .drop .. => .ownDropCompleted
  | .release _ => .ownReleaseCompleted
  | .dispatch => .ownDispatchCompleted
  | .presence => .ownPresenceCompleted

/-- R76 to R78: what the station makes of a frame decided with these bits; `own` is its own entry in flight, if the frame is
its own. An abandoned frame is objected to by the others alone, and may still turn out good (R75, R85). -/
def decided (own : Option TxEntry) (bits : List Bool) (how : Hearing) : Received → Option Instr
  | .good f =>
    match own with
    | some e => some e.kind.completion
    | none => some (telegramCommand f)
  | .objected => own.map fun _ => .attemptFailed
  | .flawed flaw =>
    match how with
    | .plain => some (.unreadableFrame (classOfBits bits) flaw false)
    | .withdrawn => some (.unreadableFrame (classOfBits bits) flaw true)
    | .abandoned | .cutOff => none
  | .incomplete => none

/-- R72: the gap counts the recessive bits since the last dominant one, up to 10; ALN_TX goes on to its next bit. -/
def LineUnit.read (u : LineUnit) (line : Bool) : LineUnit :=
  { u with tx := u.tx.tail, gap := if line then min gapBits (u.gap + 1) else 0 }

/-- R72, R75: the window of a frame whose end is placed has passed: the gap begins with the next bit. An own frame that the
station has cut short keeps the count since the last dominant bit. -/
def LineUnit.windowOver (u : LineUnit) (how : Hearing) : LineUnit :=
  { u with
    rx := .free false
    gap := match how with
      | .plain | .withdrawn => 0
      | .abandoned | .cutOff => u.gap }

/-- R72, R76, R77: the receiver after a bit of a frame, its bits these. -/
def LineUnit.receives (u : LineUnit) (bits : List Bool) (how : Hearing) : Received → LineUnit
  | .good _ | .objected => u.windowOver how
  | .flawed flaw => { u with rx := afterFlaw flaw bits how }
  | .incomplete => { u with rx := .reading bits how }

/-- R72: between frames: a dominant bit after a recessive one is a start bit, where one is taken. The row says that the 10 bits
waited for have been seen. -/
def Alc.freeBit (a : Alc) (seen line : Bool) : LineUnit × Option Instr :=
  let u := a.unit.read line
  if line then
    ({ u with rx := .free true }, if a.waitGap && u.gap = gapBits then some .recessiveBitsSeen else none)
  else if seen && !a.waitGap then
    ({ u with rx := .reading [false] (if a.st = .withdrawn then .withdrawn else .plain) }, none)
  else ({ u with rx := .free false }, none)

/-- R74, R75: a bit of the own frame through its end bit, sent as `own`, is read back as `line`, `sent` being the bits
before it. -/
def mismatch (own line : Bool) (tx sent : List Bool) : Option Instr :=
  if own = line ∨ tx.length ≤ 2 then none
  else if arbitrates sent then some .arbitrationLost
  else some .attemptFailed

/-- R72, R74: a dominant bit read after an own frame was cut off in its arbitration is a rival's: its frame goes on, and is received
like any other. -/
def Hearing.next (how : Hearing) (line : Bool) : Hearing := if how = .cutOff ∧ line = false then .plain else how

/-- R74 to R77: a bit of a frame that is sent or received. -/
def Alc.frameBit (a : Alc) (bits : List Bool) (heard : Hearing) (own line : Bool) : LineUnit × Option Instr :=
  let how := heard.next line
  let now := bits ++ [line]
  let sending := if a.unit.tx.isEmpty then none else a.flying
  ((a.unit.read line).receives now how (receive now),
    match sending.bind fun _ => mismatch own line a.unit.tx bits with
    | some i => some i
    | none => decided sending now how (receive now))

/-- One bit time in which the other parties drive `other`: the line as the station reads it, what the receiver and the
counts become, and the row of what has been decided. -/
def Alc.bit (a : Alc) (other : Bool) : LineUnit × Option Instr :=
  if a.st = .off then (a.unit, none)
  else
    let own := a.alnTx
    let line := wiredAnd own other
    match a.unit.rx with
    | .free seen => a.freeBit seen line
    | .reading bits how => a.frameBit bits how own line
    | .passing left how =>
      let u := a.unit.read line
      (if left ≤ 1 then u.windowOver how else { u with rx := .passing (left - 1) how }, none)

/-- One bit time of the aisle line; what it decides becomes the command waiting. -/
def State.bitTime (s : State) : State :=
  match s.bits with
  | [] => s
  | other :: rest =>
    let r := s.alc.bit other
    { s with alc := { s.alc with unit := r.1 }, bits := rest, pending := r.2.toList }

/-- What the station does with no command waiting. -/
def State.idle (s : State) : State :=
  if !s.due.isEmpty then { s with pending := s.due } else if s.bits.isEmpty then s.tick else s.bitTime

end Sys2Proof.Machine
end

