-- ==== Sys2Proof/Machine/Dispatch.lean ====
section
/-! DEFINITION. The meaning of every command: one arm per constructor of `Instr`, each one direct call. -/
namespace Sys2Proof.Machine

def exec (i : Instr) (s : State) : Host.Outcome State Fault Refusal :=
  match i with
  | .powerOnReset => Sys2Proof.Machine.execPowerOnReset s
  | .addressStrapsRead addr => Sys2Proof.Machine.execAddressStrapsRead addr s
  | .strapsTimeout => Sys2Proof.Machine.execStrapsTimeout s
  | .configReadDone record => Sys2Proof.Machine.execConfigReadDone record s
  | .configReadFail => Sys2Proof.Machine.execConfigReadFail s
  | .configRetryWaitEnd => Sys2Proof.Machine.execConfigRetryWaitEnd s
  | .join levels => Sys2Proof.Machine.execJoin levels s
  | .settleTimeout settled levels => Sys2Proof.Machine.execSettleTimeout settled levels s
  | .malformedFrame bytes => Sys2Proof.Machine.execMalformedFrame bytes s
  | .readResponse bytes => Sys2Proof.Machine.execReadResponse bytes s
  | .jobSet payload => Sys2Proof.Machine.execJobSet payload s
  | .jobRead payload => Sys2Proof.Machine.execJobRead payload s
  | .lotSet payload => Sys2Proof.Machine.execLotSet payload s
  | .statusRead payload => Sys2Proof.Machine.execStatusRead payload s
  | .faultRead payload => Sys2Proof.Machine.execFaultRead payload s
  | .countsRead payload => Sys2Proof.Machine.execCountsRead payload s
  | .flagsSet payload => Sys2Proof.Machine.execFlagsSet payload s
  | .flagsClear payload => Sys2Proof.Machine.execFlagsClear payload s
  | .flagsFlip payload => Sys2Proof.Machine.execFlagsFlip payload s
  | .eventClaim payload => Sys2Proof.Machine.execEventClaim payload s
  | .eventComplete payload => Sys2Proof.Machine.execEventComplete payload s
  | .eventPrioritySet payload => Sys2Proof.Machine.execEventPrioritySet payload s
  | .eventThresholdSet payload => Sys2Proof.Machine.execEventThresholdSet payload s
  | .resume payload => Sys2Proof.Machine.execResume payload s
  | .faultClear payload => Sys2Proof.Machine.execFaultClear payload s
  | .watchSet payload => Sys2Proof.Machine.execWatchSet payload s
  | .watchOff payload => Sys2Proof.Machine.execWatchOff payload s
  | .remnantTrayEmptied payload => Sys2Proof.Machine.execRemnantTrayEmptied payload s
  | .rejectBinEmptied payload => Sys2Proof.Machine.execRejectBinEmptied payload s
  | .restart payload => Sys2Proof.Machine.execRestart payload s
  | .configLoad payload => Sys2Proof.Machine.execConfigLoad payload s
  | .configPageWritten => Sys2Proof.Machine.execConfigPageWritten s
  | .configPageTimeout => Sys2Proof.Machine.execConfigPageTimeout s
  | .configReadbackDone record => Sys2Proof.Machine.execConfigReadbackDone record s
  | .feedReqRaised => Sys2Proof.Machine.execFeedReqRaised s
  | .feedReqDropped => Sys2Proof.Machine.execFeedReqDropped s
  | .feedServe => Sys2Proof.Machine.execFeedServe s
  | .cutDoneEdge => Sys2Proof.Machine.execCutDoneEdge s
  | .colletOpenAsserted => Sys2Proof.Machine.execColletOpenAsserted s
  | .colletOpenDropped => Sys2Proof.Machine.execColletOpenDropped s
  | .encoderEdge a b => Sys2Proof.Machine.execEncoderEdge a b s
  | .moveSettled => Sys2Proof.Machine.execMoveSettled s
  | .pusherStall => Sys2Proof.Machine.execPusherStall s
  | .contactFound => Sys2Proof.Machine.execContactFound s
  | .homeSwEdge level => Sys2Proof.Machine.execHomeSwEdge level s
  | .homingLimit => Sys2Proof.Machine.execHomingLimit s
  | .fwdLimitActive level => Sys2Proof.Machine.execFwdLimitActive level s
  | .guardOpen level => Sys2Proof.Machine.execGuardOpen level s
  | .rackLoad => Sys2Proof.Machine.execRackLoad s
  | .escapePulseEnd => Sys2Proof.Machine.execEscapePulseEnd s
  | .channelChange level => Sys2Proof.Machine.execChannelChange level s
  | .loadingLimit => Sys2Proof.Machine.execLoadingLimit s
  | .spindleEntryEdge level => Sys2Proof.Machine.execSpindleEntryEdge level s
  | .barEndRetract => Sys2Proof.Machine.execBarEndRetract s
  | .ejectPulseEnd => Sys2Proof.Machine.execEjectPulseEnd s
  | .remnantEdge => Sys2Proof.Machine.execRemnantEdge s
  | .remnantLimit => Sys2Proof.Machine.execRemnantLimit s
  | .colletLimit => Sys2Proof.Machine.execColletLimit s
  | .rackEntryEdge => Sys2Proof.Machine.execRackEntryEdge s
  | .indexEdge => Sys2Proof.Machine.execIndexEdge s
  | .homeEdge => Sys2Proof.Machine.execHomeEdge s
  | .advanceWindowEnd => Sys2Proof.Machine.execAdvanceWindowEnd s
  | .homeHoldWindowEnd => Sys2Proof.Machine.execHomeHoldWindowEnd s
  | .trayBottomChange level => Sys2Proof.Machine.execTrayBottomChange level s
  | .foundPartRecord => Sys2Proof.Machine.execFoundPartRecord s
  | .trayEntryEdge => Sys2Proof.Machine.execTrayEntryEdge s
  | .binEntryEdge => Sys2Proof.Machine.execBinEntryEdge s
  | .catchWindowEnd => Sys2Proof.Machine.execCatchWindowEnd s
  | .gateTimeEnd => Sys2Proof.Machine.execGateTimeEnd s
  | .dropSenseEdge => Sys2Proof.Machine.execDropSenseEdge s
  | .dropConfirmationTimeout => Sys2Proof.Machine.execDropConfirmationTimeout s
  | .transmitStart => Sys2Proof.Machine.execTransmitStart s
  | .arbitrationLost => Sys2Proof.Machine.execArbitrationLost s
  | .attemptFailed => Sys2Proof.Machine.execAttemptFailed s
  | .unreadableFrame cls flaw fromWithdrawn => Sys2Proof.Machine.execUnreadableFrame cls flaw fromWithdrawn s
  | .listeningTimerEnd => Sys2Proof.Machine.execListeningTimerEnd s
  | .withdrawnTimerEnd => Sys2Proof.Machine.execWithdrawnTimerEnd s
  | .claim sender pocket => Sys2Proof.Machine.execClaim sender pocket s
  | .drop sender pocket mark seq => Sys2Proof.Machine.execDrop sender pocket mark seq s
  | .release sender pocket => Sys2Proof.Machine.execRelease sender pocket s
  | .dispatch sender band barType trip => Sys2Proof.Machine.execDispatch sender band barType trip s
  | .presence sender summary ds n status band barType trip => Sys2Proof.Machine.execPresence sender summary ds n status band barType trip s
  | .shuttleIdle => Sys2Proof.Machine.execShuttleIdle s
  | .shuttleBusy station barType remaining => Sys2Proof.Machine.execShuttleBusy station barType remaining s
  | .shuttleDelivered station barType => Sys2Proof.Machine.execShuttleDelivered station barType s
  | .shuttleFault kind station => Sys2Proof.Machine.execShuttleFault kind station s
  | .ownClaimCompleted => Sys2Proof.Machine.execOwnClaimCompleted s
  | .ownDropCompleted => Sys2Proof.Machine.execOwnDropCompleted s
  | .ownReleaseCompleted => Sys2Proof.Machine.execOwnReleaseCompleted s
  | .ownDispatchCompleted => Sys2Proof.Machine.execOwnDispatchCompleted s
  | .ownPresenceCompleted => Sys2Proof.Machine.execOwnPresenceCompleted s
  | .dispatchTimerExpiry => Sys2Proof.Machine.execDispatchTimerExpiry s
  | .deliveryWindowEnd => Sys2Proof.Machine.execDeliveryWindowEnd s
  | .earlyEdgeWindowEnd => Sys2Proof.Machine.execEarlyEdgeWindowEnd s
  | .psrOneSecondTimer => Sys2Proof.Machine.execPsrOneSecondTimer s
  | .peerRecordExpiry addr => Sys2Proof.Machine.execPeerRecordExpiry addr s
  | .stockOutHoldEnd barType => Sys2Proof.Machine.execStockOutHoldEnd barType s
  | .sfcOneSecondTimer => Sys2Proof.Machine.execSfcOneSecondTimer s
  | .unknownCommand code payload => Sys2Proof.Machine.execUnknownCommand code payload s
  | .responsePlaced => Sys2Proof.Machine.execResponsePlaced s
  | .goodFrameNoOwner cls sender payload => Sys2Proof.Machine.execGoodFrameNoOwner cls sender payload s
  | .recessiveBitsSeen => Sys2Proof.Machine.execRecessiveBitsSeen s

end Sys2Proof.Machine
end

