-- ==== Sys2Proof/Safety.lean ====
section
/-! DEFINITION. What a safe station is, in the terms the claims use: the laws the manual states of every state. -/
namespace Sys2Proof.Safety

open Sys2Proof.Machine

/-- R3: rack records plus en-route records never exceed 3. -/
def rackLaw (s : State) : Bool := s.waitingBars ≤ 3

/-- R24: PUSH_FWD and PUSH_REV are never commanded together. -/
def driveLaw (s : State) : Bool := !(s.commanded .pushFwd && s.commanded .pushRev)

/-- R86: the transmit queue is kept in ascending order of arbitration value. -/
def queueLaw (s : State) : Prop := (s.alc.queue.map (·.value)).Pairwise (· ≤ ·)

/-- Section 5.2: the peer table is kept in ascending order of address, no address appearing twice, at most 31 records. -/
def peerLaw (s : State) : Prop :=
  (s.psr.peers.map (·.addr)).Pairwise (· < ·) ∧ s.psr.peers.length ≤ Config.peerCapacity

/-- R28, R48: in SAFE no output of the feed sequencer drives. -/
def stillLaw (s : State) : Bool :=
  !s.inSafe || !(s.commanded .pushFwd || s.commanded .pushRev || s.commanded .pushFast || s.commanded .escape ||
    s.commanded .eject)

/-- R188, R216: the pusher outputs have OFF or FLOAT as their safe-state selection. -/
def pusherSelLaw (s : State) : Prop :=
  ∀ c, s.stu.cfg = some c → ∀ i : Fin 3, c.safeSel[i.val]? = some .off ∨ c.safeSel[i.val]? = some .float

/-- R42, R101, R103: an en-route record is there only in EN_ROUTE. -/
def enRouteLaw (s : State) : Bool := s.bac.enRoute.isNone || s.psr.dispatch == .enRoute

/-- R28: while the engine is paused or the level is SAFE, FSQ drives nothing. -/
def heldLaw (s : State) : Bool :=
  !s.feedHeld || !(s.commanded .pushFwd || s.commanded .pushRev || s.commanded .pushFast || s.commanded .escape ||
    s.commanded .eject)

/-- R138: every part caught was binned, was dropped or waits in the hold queue. -/
def partLaw (s : State) : Prop :=
  s.uns.caught = s.uns.binned + s.uns.dropped + BitVec.ofNat 32 s.uns.hold.length

/-- R142: the claim table holds at most 4 entries. -/
def claimLaw (s : State) : Bool := s.uns.closing.length + s.uns.active.length ≤ Config.claimCapacity

/-- R141: no pocket stands in two entries of the claim table. -/
def pocketLaw (s : State) : Prop := (s.uns.closing.map (·.pocket) ++ s.uns.active.map (·.pocket)).Nodup

/-- The feed engine has nothing left to do: no latched pulse to take, and it is held or waits for a sensor, a line, a time or
the CNC. -/
def engineRests (s : State) : Bool := s.cutStep.isNone && (if s.feedHeld then s.heldStep else s.engineStep).isNone

/-! ## Moves -/

/-- R24, R29, R32, R35: by the speed rule of the present state, a move of this leg and target drives PUSH_FAST at P = p. The
measuring move of a bar without type never does (DEDUCED, assumption log 22). -/
def fastAt (s : State) (leg : Leg) (target : Option Int) (p : Int) : Prop :=
  match s.fsq.st, leg with
  | .homing, .main => (s.cfg.slowZone : Int) < p
  | .homing, _ => False
  | .remeasure, .main => ∃ c, s.fsq.pCut = some c ∧ p < c - s.cfg.slowZone
  | .measuring, .main => ∃ b ty, s.bac.current = some b ∧ b.barType = some ty ∧
      let ln := (s.typeCfg ty).nominal
      p < (s.cfg.xEntry : Int) - ln - (ln / 10 : Nat) - s.cfg.slowZone
  | _, _ => ∃ g, target = some g ∧ (s.cfg.slowZone : Int) < (g - p).natAbs

/-- R24: P stands at the stop point of the move or past it. -/
def atStop (s : State) (m : Move) : Prop :=
  ∃ g p, m.target = some g ∧ s.posn = some p ∧
    (m.dir = .fwd ∧ g - s.cfg.runOn ≤ p ∨ m.dir = .rev ∧ p ≤ g + s.cfg.runOn)

/-- R25, R29, R30, R38: `u` is `v` with its move `m` begun or taken up again: it waits for COLLET_OPEN, in FEEDING for 2 s at
most, or drives, or has its stop point behind it; HOMING drives forward off an active HOME_SW and in reverse otherwise. -/
structure Drives (v u : State) (m : Move) : Prop where
  waits : v.inp .colletOpen = false → u = { v with fsq := { v.fsq with
    move := some { m with phase := .waiting, fast := false }
    limit := if v.fsq.st = .feeding then some 2000 else none } }
  isThere : v.inp .colletOpen = true → v.fsq.st ≠ .homing → atStop v m → u = { v with fsq := { v.fsq with
    move := some { m with phase := .coasting, fast := false }
    limit := if v.fsq.st = .feeding then none else v.fsq.limit } }
  goes : v.inp .colletOpen = true → v.fsq.st ≠ .homing → ¬atStop v m → ∃ fast : Bool,
    (fast = true ↔ ∃ p, v.posn = some p ∧ fastAt v m.leg m.target p) ∧ u = { v with fsq := { v.fsq with
      move := some { m with phase := .driving, fast := fast }, quiet := 0
      limit := if v.fsq.st = .feeding then none else v.fsq.limit } }
  approaches : v.inp .colletOpen = true → v.fsq.st = .homing → m.leg = .main ∨ v.inp .homeSw = false → ∃ fast : Bool,
    (fast = true ↔ ∃ p, v.posn = some p ∧ (v.cfg.slowZone : Int) < p) ∧ u = { v with
      sig := { v.sig with zeroArmed := true }
      fsq := { v.fsq with
        move := some { m with leg := .main, dir := .rev, target := none, phase := .driving, fast := fast }, quiet := 0
        limit := some (v.fsq.limit.getD 30000) } }
  leaves : v.inp .colletOpen = true → v.fsq.st = .homing → m.leg ≠ .main → v.inp .homeSw = true →
    v.inp .fwdLimit = false → u = { v with fsq := { v.fsq with
      move := some { m with leg := .offSwitch, dir := .fwd, target := none, phase := .driving, fast := false }, quiet := 0
      limit := some (v.fsq.limit.getD 30000) } }
  blocked : v.inp .colletOpen = true → v.fsq.st = .homing → m.leg ≠ .main → v.inp .homeSw = true →
    v.inp .fwdLimit = true → u = v.severe .overtravel none

/-! ## What follows a command -/

/-- The state with the fields blanked that follow from others after every command: BAR_OUT, the forecast, the transmit queue,
the dispatch state and the summary of PRESENCE, the active claims with the yield counter, and the
pending marks of the event sources. -/
def base (s : State) : State :=
  { s with
    fsq := { s.fsq with barOut := false }
    sfc := { s.sfc with values := none, need := Sfc.reset.need, starve := false }
    alc := { s.alc with queue := [] }
    psr := { s.psr with dispatch := .none, summary := .noJob }
    uns := { s.uns with active := [], yield := 0 }
    mpt := { s.mpt with sources := mapTable (fun x => { x with pending := false }) s.mpt.sources } }

/-- The same, with the size mismatch mark and the notices blanked too, which a changed peer table sets afresh (R130). -/
def peerBase (s : State) : State :=
  { base s with
    blt := { s.blt with mismatch := false }
    flt := { s.flt with last := none, notices := 0 } }

/-- R100: the dispatch state after the need has turned active or inactive. -/
def turnedDispatch (d : DispatchState) (active : Bool) : DispatchState :=
  match d with
  | .none | .waiting => if active then .waiting else .none
  | .queued => if active then .queued else .none
  | .sent => .sent
  | .enRoute => .enRoute

/-- The forecast is recomputed after a change from `s0` to `u` (R63). -/
def recomputes (force : Bool) (s0 u : State) : Bool := force || forecastDue s0 u

/-- A source is raised, in `t`, that was not to be raised before. -/
def Raised (t : State) (e : EventSrc) : Prop := 1 ≤ t.mpt.sources[e.idx].priority → t.mpt.sources[e.idx].pending = true

/-- R208: the port with this source raised and nothing else changed: it is pending where its priority is 1 or more. -/
def raising (m : Mpt) (e : EventSrc) : Mpt :=
  { m with sources := m.sources.set e.idx { m.sources[e.idx] with
      pending := m.sources[e.idx].pending || decide (1 ≤ m.sources[e.idx].priority) } }

/-- R160: the state with a notice of this kind and context taken: it is the last notice, the count has risen by 1, and the event of
the kind is raised. -/
def noticed (s : State) (k : FaultKind) (ctx : Option Nat) (e : EventSrc) : State :=
  { s with flt := { s.flt with last := some (k, ctx), notices := s.flt.notices + 1 }, mpt := raising s.mpt e }

/-- R90: what the clear makes of the line unit: nothing is driven any more, and a frame in flight is cut off. How what is left of
it is read is the model's choice (assumption log 30). -/
def clearedUnit (a : Alc) : LineUnit :=
  if ∃ e ∈ a.queue, e.inFlight = true then ⟨[], a.unit.gap, match a.unit.rx with
      | .reading bits _ => if bits = [] then .free true
        else .reading bits (if (placeOf bits).count ≤ 16 then .cutOff else .abandoned)
      | .free seen => .free seen
      | .passing n _ => .passing n .abandoned⟩
    else a.unit

/-- R87, R93: a PRESENCE asked for now would be queued, or would join the one that is. -/
def mayAsk (s : State) : Prop :=
  s.alc.st.accepts = true ∧ (s.alc.queue.length < 8 ∨ ∃ e ∈ s.alc.queue, e.kind = .presence)

/-- R87, R93: a PRESENCE stands in this transmit queue as one just asked for: its count is 0, or another attempt follows the one
in flight. -/
def Asked (q : List TxEntry) : Prop :=
  (∃ e ∈ q, e.kind = .presence) ∧ ∀ e ∈ q, e.kind = .presence → if e.inFlight then e.again = true else e.fails = 0

/-- R89, R100: no DISPATCH stands in this transmit queue, but for one in flight that leaves at the end of its attempt. -/
def Withdrawn (q : List TxEntry) : Prop := ∀ e ∈ q, e.kind = .dispatch → e.inFlight = true ∧ e.leaving = true

/-- R79, R89, R102, R146, R152: `u` is `v` with the owner of an own telegram of this kind told that it has left the transmit queue
without completing: a round still queued ends, the claim that waited for it leaves the table, and the record of an awaited DROP
leaves with its entry, as a part dropped. -/
def Told (k : TxKind) (v u : State) : Prop :=
  let closes (p : Nat) (st : CloseStage) := (v.uns.closing.find? (·.pocket == p)).map (·.stage) = some st
  let without (p : Nat) := v.uns.closing.filter (·.pocket != p)
  match k with
  | .presence => u = v
  | .dispatch => u = { v with psr := { v.psr with
      dispatch := if v.psr.dispatch = .queued then v.restState else v.psr.dispatch } }
  | .claim p => u = { v with uns := { v.uns with
      active := if v.uns.active.find? (·.pocket == p) = some ⟨p, .queued⟩ then v.uns.active.filter (·.pocket != p)
        else v.uns.active
      closing := if closes p .awaitClaim then without p else v.uns.closing } }
  | .release p => u = { v with uns := { v.uns with
      closing := if closes p .awaitRelease then without p else v.uns.closing } }
  | .drop p _ _ =>
    let served := if closes p .awaitDrop then (v.uns.closing.find? (·.pocket == p)).bind (·.bound) else none
    u = { v with uns := { v.uns with
      closing := if closes p .awaitDrop then without p else v.uns.closing
      hold := v.uns.hold.eraseP fun r => served == some r.seq
      dropped := if ∃ r ∈ v.uns.hold, served = some r.seq then v.uns.dropped + 1 else v.uns.dropped } }

/-- R90: `u` is `v` with the owners of these telegrams told one after the other, as `Told` says of each. -/
def ToldAll : List TxKind → State → State → Prop
  | [], v, u => u = v
  | k :: ks, v, u => ∃ w, Told k v w ∧ ToldAll ks w u

/-- R81, R128, R156: what a resync makes of the belt and the claims. The belt is UNSYNCED, its map unknown and its misses 0; the
CLAIM of a QUEUED claim leaves the transmit queue at once, or, in flight, at the end of its attempt, which its entry then awaits as
CLOSING (R89; the mark it carries till then is the model's reading, assumption log 12); every active claim ends without a RELEASE;
a DROPPING entry becomes CLOSING, its confirmation running on. That its gate time runs on too is the model's choice (assumption
log 12). -/
def resynced (v : State) : State :=
  let asked (e : TxEntry) : Bool := v.uns.active.any fun c => c.stage == .queued && e.kind == .claim c.pocket
  let flying (c : ActiveClaim) : Bool := c.stage == .queued && v.alc.queue.any fun e => e.kind == .claim c.pocket && e.inFlight
  { v with
    blt := { v.blt with sync := .unsynced, map := List.replicate v.cfg.pockets .unknown, misses := 0 }
    alc := { v.alc with queue :=
      (v.alc.queue.filter fun e => !asked e || e.inFlight).map fun e => if asked e then { e with leaving := true } else e }
    uns := { v.uns with
      active := []
      closing := (v.uns.closing.map fun c => if c.stage = .dropping then { c with stage := .awaitConfirm } else c) ++
        (v.uns.active.filter flying).map fun c => ⟨c.pocket, .awaitClaim, none⟩ } }

/-- R90, R152, R155: what SAFE entry makes of the claim table and the records once the transmit queue is cleared; `takes` says that
the line takes requests. A QUEUED claim ends; one HELD or ARMED becomes CLOSING awaiting its RELEASE, as an entry that awaited one
does again, and ends where the RELEASE is refused; a DROPPING entry becomes CLOSING, its confirmation and its gate time running
on; an entry that awaited its DROP leaves with its record, as a part dropped, and one that awaited a CLAIM's attempt leaves too
(the model's reading, assumption log 12). -/
def safeClaims (takes : Bool) (u : Uns) : Uns :=
  let released (p : Nat) : ClosingClaim := ⟨p, .awaitRelease, none⟩
  let hold := (u.closing.filter (·.stage == .awaitDrop)).foldl (fun h c => h.eraseP fun r => c.bound == some r.seq) u.hold
  { u with
    active := []
    closing := (u.closing.filterMap fun c => match c.stage with
        | .dropping => some { c with stage := .awaitConfirm }
        | .awaitConfirm => some c
        | .awaitRelease => if takes then some (released c.pocket) else none
        | .awaitDrop => none
        | .awaitClaim => none) ++
      (u.active.filterMap fun c => if takes && c.stage != .queued then some (released c.pocket) else none)
    hold := hold
    dropped := u.dropped + BitVec.ofNat 32 (u.hold.length - hold.length) }

/-- R155: the pockets a RELEASE is asked for at SAFE entry, in the order of the requests: those of entries that awaited one, then
those of HELD and ARMED claims. The order is the model's choice (assumption log 12). -/
def safeReleases (u : Uns) : List Nat :=
  (u.closing.filter (·.stage == .awaitRelease)).map (·.pocket) ++ (u.active.filter (·.stage != .queued)).map (·.pocket)

/-- R145: the yield rule applies. -/
def yields (s : State) : Prop := s.uns.hold.length < 4 ∧ ∃ p ∈ s.psr.peers, p.pressed = true ∧ p.ds < s.cfg.dropDist

/-- R142: the entries the claim table may hold: 4, and one for each part held and for the one being cut. -/
def claimBound (s : State) : Nat := min 4 (s.uns.hold.length + if s.fsq.st = .cutting then 1 else 0)

/-- R142, R143, R145: a claim may be added. -/
structure MayAdd (s : State) : Prop where
  synced : ∃ b, s.blt.sync = .synced b
  free : s.mpt.flags.getLsbD 0 = false
  level : s.flt.level ≠ .safe
  line : s.alc.st = .active
  sizes : s.blt.mismatch = false
  running : s.flt.unloadPaused = none
  room : s.uns.closing.length + s.uns.active.length < claimBound s
  spaced : yields s → s.uns.yield = 0

/-- R144: the pocket at arrival distance `a` from Lmin to Lmax may be claimed: it is FREE, and no own entry names it. -/
def Claimable (s : State) (a : Nat) : Prop :=
  s.cfg.lmin ≤ a ∧ a ≤ s.cfg.lmax ∧ s.entryAt (s.pocketAt a) = .free ∧ s.uns.names (s.pocketAt a) = false

/-- R142 to R145: `t` comes from a selection attempt that found the unload sequencer as `before`. -/
structure Selected (before : Uns) (t : State) : Prop where
  /-- Only active claims join, and the yield counter may be set. -/
  rest : t.uns = { before with active := t.uns.active, yield := t.uns.yield }
  stand : t.uns.active.filter (fun c => before.names c.pocket) = before.active
  /-- A claim that joins is QUEUED on the nearest pocket that may be claimed, and its CLAIM is asked for. -/
  added : ∀ c ∈ t.uns.active, before.names c.pocket = false → c.stage = .queued ∧ (∃ e ∈ t.alc.queue, e.kind = .claim c.pocket) ∧
    t.entryAt c.pocket = .free ∧ ∃ a, t.cfg.lmin ≤ a ∧ a ≤ t.cfg.lmax ∧ c.pocket = t.pocketAt a ∧ ∀ x, x < a → ¬Claimable t x
  /-- It joins only where R143 allowed it, sets the yield counter, and joins alone while the yield rule applies. -/
  allowed : (∃ c ∈ t.uns.active, before.names c.pocket = false) → MayAdd { t with uns := before } ∧
    t.uns.closing.length + t.uns.active.length ≤ claimBound t ∧ t.uns.yield = t.cfg.spacing ∧
    (yields t → t.cfg.spacing ≠ 0 → t.uns.active.length = before.active.length + 1)
  none : (∀ c ∈ t.uns.active, before.names c.pocket = true) → t.uns.yield = before.yield
  /-- It goes on while R143 allows a further claim, a pocket remains and the line takes the request. -/
  done : MayAdd t → t.accepts = true → ∀ a, ¬Claimable t a

/-- What follows a command: `s0` is the state before it, `u` the state its own effect and the feed engine have left, `t` the
next state; `force` asks for the recomputation of the forecast whatever has changed. -/
structure Follows (force : Bool) (s0 u t : State) : Prop where
  /-- Nothing else changes than the fields `base` blanks. -/
  rest : peersChanged s0 u = false → base t = base u
  /-- R130: with a changed peer table the mismatch mark and its notice may change too. -/
  restPeers : peerBase t = peerBase u
  /-- R130: the mark then says whether a record has another belt size, and its rise raises the notice. -/
  mismatch : peersChanged s0 u = true → (t.blt.mismatch = true ↔ ∃ p ∈ u.psr.peers, p.n ≠ u.cfg.pockets)
  mismatchRises : peersChanged s0 u = true → t.blt.mismatch = true → u.blt.mismatch = false →
    t.flt.last = some (.beltSizeMismatch, none) ∧ t.flt.notices = u.flt.notices + 1 ∧ Raised t .lineNotice
  mismatchStands : peersChanged s0 u = true → (t.blt.mismatch = true → u.blt.mismatch = true) →
    t.flt = u.flt ∧ t.mpt.sources[EventSrc.lineNotice.idx] = u.mpt.sources[EventSrc.lineNotice.idx]
  /-- R33. -/
  barOut : t.fsq.barOut = u.barOutNow
  /-- R94. -/
  summary : t.psr.summary = u.summaryNow
  /-- R63: no event of its table, no recomputation. -/
  keeps : recomputes force s0 u = false → t.sfc = u.sfc ∧ t.psr.dispatch = u.psr.dispatch
  /-- R56 to R64. -/
  fresh : recomputes force s0 u = true →
    t.sfc.values = u.mpt.job.map u.forecastOf ∧ t.sfc.need = u.needNow ∧ t.sfc.starve = u.starveNow
  /-- R100. -/
  turned : t.psr.dispatch =
    if t.sfc.need.active = u.sfc.need.active then u.psr.dispatch else turnedDispatch u.psr.dispatch t.sfc.need.active
  /-- R208: no pending mark is lost. -/
  pending : ∀ i : Fin 16, u.mpt.sources[i].pending = true → t.mpt.sources[i].pending = true
  /-- R33, R44, R64, R139: the events raised on entry to a condition. -/
  barOutEvent : u.barOutNow = true → u.fsq.barOut = false → Raised t .barOut
  lotDoneEvent : u.fsq.st = .lotDone → s0.fsq.st ≠ .lotDone → Raised t .lotDone
  holdFullEvent : u.holdFull = true → s0.holdFull = false → Raised t .holdFull
  binFullEvent : u.binFull = true → s0.binFull = false → Raised t .rejectBinFull
  starveEvent : t.sfc.starve = true → u.sfc.starve = false → Raised t .starveExpected
  /-- No other source is raised; LINE_NOTICE may be by a changed peer table. -/
  others : ∀ e : EventSrc, e ∉ [EventSrc.barOut, .lotDone, .holdFull, .rejectBinFull, .starveExpected] →
    (e = .lineNotice → peersChanged s0 u = false) → t.mpt.sources[e.idx] = u.mpt.sources[e.idx]
  /-- R144: with no occasion for a selection the claims stand, but for the check of R149. -/
  claims : peersChanged s0 u = false → selectionDue s0 u = false →
    t.uns.active = u.uns.active.mapIdx u.armedStage ∧ t.uns.yield = u.uns.yield
  /-- R144, R149: with an occasion, which a changed mismatch mark may give, one is attempted on the claims so checked. -/
  selects : selectionDue s0 { u with blt := { u.blt with mismatch := t.blt.mismatch } } = true →
    Selected { u.uns with active := u.uns.active.mapIdx u.armedStage } t
  /-- R62, R93, R94: a need change, a changed summary and a changed PRESSED mark ask for a PRESENCE. -/
  presence : mayAsk u → u.sfc.need.active ≠ t.sfc.need.active ∨ u.sfc.need.baseBand ≠ t.sfc.need.baseBand ∨
    u.sfc.need.barType ≠ t.sfc.need.barType ∨ u.psr.summary ≠ u.summaryNow ∨ s0.pressed ≠ u.pressed → Asked t.alc.queue
  /-- R89, R100: the need has turned inactive in QUEUED, and the DISPATCH leaves the queue. -/
  dispatch : u.psr.dispatch = .queued → u.sfc.need.active = true → t.sfc.need.active = false → Withdrawn t.alc.queue
  /-- R86, R93, R144: with nothing to ask for, the transmit queue stands. -/
  queue : peersChanged s0 u = false → selectionDue s0 u = false → recomputes force s0 u = false →
    u.psr.summary = u.summaryNow → s0.pressed = u.pressed → t.alc.queue = u.alc.queue

/-! ## The machine port -/

/-- R200: the commands that need the setup key. -/
def needsSetup : Instr → Bool
  | .jobSet _ | .lotSet _ | .faultClear _ | .restart _ | .configLoad _ => true
  | _ => false

/-- R197: the port byte of the frame that ends: the one formed at the falling edge of CS_N, or the present one where no sample
has shown CS_N low (assumption log 6). -/
def portByteNow (s : State) : Byte := s.mpt.selected.getD (BitVec.ofNat 8 (s.mpt.buffer.code + flagAt 128 s.mpt.attn))

/-- R197: the state with a frame of this many byte times clocked, MISO carrying the port byte and then zeros. -/
def clockedFor (bytes : Nat) (s : State) : State :=
  { s with mpt := { s.mpt with
      miso := if bytes = 0 then [] else portByteNow s :: List.replicate (bytes - 1) 0, selected := none } }

/-- R197: the state with the frame of a command of the port clocked. -/
def framed (i : Instr) (s : State) : State := clockedFor (2 + (((portBody i).map fun b => b.2.length).getD 0)) s

/-- Chapter 12: these bytes are exactly the fields of this table, in its order: a field of `w` bytes holds the value given, modulo
what `w` bytes hold, most significant byte first; one given without a value may hold any. -/
def Lays : List Byte → List (Nat × Option Nat) → Prop
  | d, [] => d = []
  | d, (w, v) :: fs => w ≤ d.length ∧ (∀ x, v = some x → fieldNat d 0 w = x % 256 ^ w) ∧ Lays (d.drop w) fs

/-- Section 12.4: bits as one value, the first the most significant. -/
def weigh (bits : List Bool) : Nat := bits.foldl (fun v b => 2 * v + b.toNat) 0

/-- R198: the state with this response waiting to be placed. -/
def answered (s : State) (r : Status) (data : List Byte) : State :=
  { s with mpt := { s.mpt with buffer := .pending (some { status := r, data := data }) } }

/-- R198, R199: the port takes a command of this code and payload length in RUNNING, with the setup key where it needs it. -/
def served (i : Instr) (s : State) : Bool :=
  s.running && s.mpt.takes && (!needsSetup i || s.inp .setupKey) &&
    match portBody i with
    | some b => commandLength b.1 == some b.2.length
    | none => false

end Sys2Proof.Safety
end

