-- ==== Sys2Proof/WellFormed.lean ====
section
/-! DEFINITION. Which commands are well-formed: the bounds an operand's place on the wire sets and its type does not. -/
namespace Sys2Proof

open Sys2Proof.Machine (commandLength)

/-- R197: a payload that a length byte can name. -/
def payloadFits (p : List Byte) : Bool := p.length ≤ 255

/-- Section 12.4: the record has 128 bytes. -/
def recordFits (r : List Byte) : Bool := r.length == 128

/-- R199: the frame names no command, or names READ RESPONSE with a length other than 0. -/
def namesNone (code : Byte) (p : List Byte) : Bool := (commandLength code).isNone || (code == 0x01 && !p.isEmpty)

/-- R78: the frame a GOOD_FRAME_NO_OWNER carries is handed to no owner. -/
def ownerless (cls : BitVec 3) (sender : LineAddr) (p : List Byte) : Bool :=
  (ownedCommand { value := cls ++ 0#7 ++ sender, payload := p }).isNone

/-- A command as its row, its frame or its telegram can carry it. -/
def Instr.wf : Instr → Bool
  | .configReadDone r | .configReadbackDone r => recordFits r
  | .jobSet p | .jobRead p | .lotSet p | .statusRead p | .faultRead p | .countsRead p | .flagsSet p | .flagsClear p
  | .flagsFlip p | .eventClaim p | .eventComplete p | .eventPrioritySet p | .eventThresholdSet p | .resume p
  | .faultClear p | .watchSet p | .watchOff p | .remnantTrayEmptied p | .rejectBinEmptied p | .restart p
  | .configLoad p => payloadFits p
  | .unknownCommand code p => payloadFits p && namesNone code p
  | .claim a _ | .drop a _ _ _ | .release a _ | .dispatch a _ _ _ => fromStation a
  | .presence a _ _ _ status band barType trip =>
    fromStation a && (status.getLsbD 7 || (band == 0 && barType == 0 && trip == 0))
  | .peerRecordExpiry a => fromStation a
  | .stockOutHoldEnd t => 1 ≤ t.toNat && t.toNat ≤ 15
  | .goodFrameNoOwner cls sender p => p.length ≤ 12 && ownerless cls sender p
  | .readResponse bytes => 2 ≤ bytes
  | .settleTimeout settled levels => levels &&& ~~~settled == 0
  | .powerOnReset | .addressStrapsRead _ | .strapsTimeout | .configReadFail | .configRetryWaitEnd | .join _
  | .malformedFrame _ | .configPageWritten | .configPageTimeout | .feedReqRaised | .feedReqDropped
  | .feedServe | .cutDoneEdge | .colletOpenAsserted | .colletOpenDropped | .encoderEdge _ _ | .moveSettled
  | .pusherStall | .contactFound | .homeSwEdge _ | .homingLimit | .fwdLimitActive _ | .guardOpen _ | .rackLoad
  | .escapePulseEnd | .channelChange _ | .loadingLimit | .spindleEntryEdge _ | .barEndRetract | .ejectPulseEnd
  | .remnantEdge | .remnantLimit | .colletLimit | .rackEntryEdge | .indexEdge | .homeEdge | .advanceWindowEnd
  | .homeHoldWindowEnd | .trayBottomChange _ | .foundPartRecord | .trayEntryEdge | .binEntryEdge | .catchWindowEnd
  | .gateTimeEnd | .dropSenseEdge | .dropConfirmationTimeout | .transmitStart | .arbitrationLost | .attemptFailed
  | .unreadableFrame _ _ _ | .listeningTimerEnd | .withdrawnTimerEnd | .shuttleIdle | .shuttleBusy _ _ _
  | .shuttleDelivered _ _ | .shuttleFault _ _ | .ownClaimCompleted | .ownDropCompleted | .ownReleaseCompleted
  | .ownDispatchCompleted | .ownPresenceCompleted | .dispatchTimerExpiry | .deliveryWindowEnd | .earlyEdgeWindowEnd
  | .psrOneSecondTimer | .sfcOneSecondTimer | .responsePlaced | .recessiveBitsSeen => true

end Sys2Proof
end

