-- ==== Sys2Proof/Certificates/Slice0/Obligations.lean ====
section
/-! DEFINITION. The statements for the provers. Where a statement answers a next state `t` with `Follows`, `u` is the state that
the command's own effect leaves, written out, and `u.engine` what the feed engine then makes of it; `Follows` (Safety) says that
nothing but the fields it names differs from that in `t`, and what each of those becomes. When those follow, and in what order,
is the model's choice (assumption log 11). -/

section

open Sys2Proof Sys2Proof.Machine Sys2Proof.Safety

/-! ## The machine -/

/-- The queue of commands is served from its front (assumption log 1). -/
def Obligations.StepTakesTheFrontCommand : Prop :=
  ∀ (s : State) (c : Instr) (rest : List Instr), s.pending = c :: rest → step s = exec c { s with pending := rest }

/-- With no command waiting the station queues what its own state has made due, row by row as the table here gives: the
limits, pulses, windows and timers that have run out, stillness and stall times, straps, settled inputs, the start of a frame
after a complete gap. With nothing due it takes one bit time of the aisle line where the world has one to give: ALN_TX goes on
to its next bit, the line is dominant where either side drives it so, the gap counts the recessive bits since the last
dominant one or since the window of a frame that is no abandoned own one, a start bit is looked for between frames, a frame is
decided by what has been read of it, an abandoned one without objection, one cut off in its arbitration like any other once a
rival's bit is read, and an own bit read back wrong loses the arbitration or fails the attempt. Otherwise one millisecond
passes: the next sample is taken and every filter with it, through the polarity and the length of its input, and the accepted
edges are queued by the table here, encoder first, then HOME_SW, then in the order of the tables of chapter 9, a first
accepted level as the rise of FEED_REQ, COLLET_OPEN, FWD_LIMIT, CHANNEL or TRAY_BOTTOM alone; the output pins take the states
formed from the levels commanded before, in SAFE the selected ones, every running timer and window loses a millisecond, the
cut clock counts ten of them as one TU up to its top, the seconds count while the station runs, the port byte is formed where
CS_N is first seen low, the home zero is due where it is armed at the sample of HOME_SW's rising edge (R186), and nothing else
changes. Every output is commanded as its table here says, PUSH_FWD and PUSH_REV never together. The order of the rows, what a
first level queues, and how the world gives samples and bits, is the model's choice (assumption logs 1, 3, 6, 26, 28 and 30;
R24, R52, R67, R72, R74 to R77, R85, R176 to R179, R184, R185, R187 to R192, R195 to R197). -/
def Obligations.IdleStationLetsAMillisecondPass : Prop :=
  (∀ s : State,
    (∀ o : Output, s.commanded o = true ↔
      match o with
      | .pushFwd => ∃ m, s.fsq.move = some m ∧ m.phase = .driving ∧ m.dir = .fwd
      | .pushRev => ∃ m, s.fsq.move = some m ∧ m.phase = .driving ∧ m.dir = .rev
      | .pushFast => ∃ m, s.fsq.move = some m ∧ m.phase = .driving ∧ m.fast = true
      | .colletIlk => ∃ m, s.fsq.move = some m
      | .escape => s.fsq.escape ≠ none
      | .eject => s.fsq.eject ≠ none
      | .feedDone => s.fsq.feedDone = true
      | .barOut => s.fsq.barOut = true
      | .lotEnd => s.running = true ∧ s.fsq.st = .lotDone
      | .divert => s.uns.divert = true
      | .gate => s.uns.gate ≠ none
      | .machineHold => s.flt.feedPaused ≠ none ∨ s.flt.level = .safe ∨
          s.running = true ∧ (6 ≤ s.uns.hold.length ∨ s.cfg.binCap ≤ s.bac.bin)
      | .attn => ∃ k : Fin 16, s.mpt.sources[k].pending = true ∧ s.mpt.sources[k].inService = false ∧
          s.mpt.threshold < s.mpt.sources[k].priority) ∧
    ¬(s.commanded .pushFwd = true ∧ s.commanded .pushRev = true) ∧
    ∀ c : Instr, c ∈ s.due ↔
      let run (p : Prop) : Prop := s.running = true ∧ p
      match c with
      | .responsePlaced => ∃ r, s.mpt.buffer = .pending (some r)
      | .addressStrapsRead a => s.stu.phase = .straps ∧ s.stu.strapLast = some a ∧ 4 ≤ s.stu.strapRun
      | .strapsTimeout => s.stu.phase = .straps ∧ s.stu.strapLast ≠ none ∧ s.stu.strapRun < 4 ∧ 100 ≤ s.stu.strapMs
      | .configRetryWaitEnd => s.stu.phase = .reading ∧ s.stu.retry = some 0
      | .join levels => s.stu.phase = .settling ∧ ∀ i : Input, (s.sig.filters[i.idx]).acc = some (levels.getLsbD i.idx)
      | .settleTimeout settled levels => s.stu.phase = .settling ∧ s.sig.settling = some 0 ∧
          (∃ i : Input, (s.sig.filters[i.idx]).acc = none) ∧ ∀ i : Input,
            settled.getLsbD i.idx = (s.sig.filters[i.idx]).acc.isSome ∧ levels.getLsbD i.idx = s.inp i
      | .configPageTimeout => s.stu.phase = .unconfigured ∧ ∃ l, s.stu.load = some l ∧ l.timer = some 0
      | .feedServe => run (s.fsq.request = true ∧ s.fsq.st = .ready ∧ s.feedHeld = false ∧ s.uns.hold.length ≤ 5 ∧
          s.bac.bin < s.cfg.binCap ∧ s.uns.catching = none ∧ s.fsq.feedDone = false ∧ s.mpt.job ≠ none ∧ s.fsq.pCut ≠ none)
      | .moveSettled => run (20 ≤ s.fsq.still ∧ (s.fsq.st = .cutting ∧ s.fsq.cutWait ≠ none ∨
          ∃ m, s.fsq.move = some m ∧ m.phase = .coasting ∧ (s.feedHeld = false ∨ m.halted = true ∧ s.flt.feedPaused = none ∧
            s.flt.level ≠ .safe ∧ (s.fsq.st = .feeding ∨ s.fsq.st = .positioning ∨ s.fsq.st = .barEnd))))
      | .pusherStall => run (500 ≤ s.fsq.quiet ∧
          ∃ m, s.fsq.move = some m ∧ m.phase = .driving ∧ ¬(s.fsq.st = .remeasure ∧ m.leg = .main))
      | .contactFound => run (200 ≤ s.fsq.quiet ∧
          ∃ m, s.fsq.move = some m ∧ m.phase = .driving ∧ s.fsq.st = .remeasure ∧ m.leg = .main)
      | .homingLimit => run (s.fsq.st = .homing ∧ s.fsq.limit = some 0)
      | .rackLoad => run (s.fsq.st = .noBar ∧ s.feedHeld = false ∧ s.mpt.flags.getLsbD 2 = false ∧ s.inp .channel = false ∧
          s.bac.rack ≠ [])
      | .escapePulseEnd => run (s.fsq.escape = some 0)
      | .loadingLimit => run (s.fsq.st = .loading ∧ s.fsq.limit = some 0)
      | .barEndRetract => run (s.fsq.st = .barEnd ∧ s.feedHeld = false ∧ s.fsq.begun = true ∧ s.fsq.move = none ∧
          s.inp .colletOpen = true ∧ s.bac.tray < s.cfg.trayCap)
      | .ejectPulseEnd => run (s.fsq.eject = some 0)
      | .remnantLimit => run (s.fsq.st = .ejecting ∧ s.fsq.limit = some 0)
      | .colletLimit => run (s.fsq.st = .feeding ∧ s.fsq.limit = some 0 ∧ ∃ m, s.fsq.move = some m ∧ m.phase = .waiting)
      | .advanceWindowEnd => run (∃ w, s.blt.advance = some w ∧ w.left = 0)
      | .homeHoldWindowEnd => run (s.blt.homeHeld = some 0)
      | .foundPartRecord => run (s.inp .trayBottom = true ∧
          (∀ r ∈ s.uns.hold, r.dropped = true ∨ ∃ e ∈ s.uns.closing, e.bound = some r.seq) ∧ s.uns.catching = none ∧
          s.uns.confirm = none ∧ s.fsq.st ≠ .feeding ∧ s.fsq.st ≠ .cutting ∧ s.uns.hold.length < 6)
      | .catchWindowEnd => run (∃ r, s.uns.catching = some (r, 0))
      | .gateTimeEnd => run (s.uns.gate = some 0)
      | .dropConfirmationTimeout => run (s.uns.confirm = some 0)
      | .listeningTimerEnd => run (s.alc.st = .listening ∧ s.alc.timer = some 0)
      | .withdrawnTimerEnd => run (s.alc.st = .withdrawn ∧ s.alc.timer = some 0)
      | .dispatchTimerExpiry => run (s.psr.dispatch = .sent ∧ s.psr.dispTimer = some 0)
      | .deliveryWindowEnd => run (∃ ty, s.psr.delivery = some (ty, 0))
      | .earlyEdgeWindowEnd => run (s.psr.earlyEdge = some 0)
      | .psrOneSecondTimer => run (s.psr.second = some 0)
      | .sfcOneSecondTimer => run (s.sfc.second = some 0)
      | .transmitStart => run (s.alc.st = .active ∧ 10 ≤ s.alc.unit.gap ∧ s.alc.unit.tx = [] ∧ s.alc.queue ≠ [] ∧
          (∀ e ∈ s.alc.queue, e.inFlight = false) ∧ ∃ seen, s.alc.unit.rx = .free seen)
      | _ => False) ∧
  ∀ s : State, s.pending = [] → ∃ t, step s = .next t ∧
    (s.due ≠ [] → t = { s with pending := s.due }) ∧
    (s.due = [] → ∀ other rest, s.bits = other :: rest →
      t = { s with alc := { s.alc with unit := t.alc.unit }, bits := rest, pending := t.pending } ∧
      (s.alc.st = .off → t.alc.unit = s.alc.unit ∧ t.pending = [] ∧ s.alc.alnTx = true) ∧
      (s.alc.st ≠ .off → s.alc.alnTx = s.alc.unit.tx.headD true ∧
        let line := s.alc.unit.tx.headD true && other
        let gap := if line then min 10 (s.alc.unit.gap + 1) else 0
        let leaves (gap : Nat) (rx : Rx) : Prop := t.alc.unit = ⟨s.alc.unit.tx.tail, gap, rx⟩
        (∀ seen, s.alc.unit.rx = .free seen →
          (line = true → leaves gap (.free true) ∧
            t.pending = if s.alc.waitGap = true ∧ 9 ≤ s.alc.unit.gap then [.recessiveBitsSeen] else []) ∧
          (line = false → t.pending = [] ∧ leaves gap (if seen = true ∧ s.alc.waitGap = false
            then .reading [false] (if s.alc.st = .withdrawn then .withdrawn else .plain) else .free false))) ∧
        (∀ n how, s.alc.unit.rx = .passing n how → t.pending = [] ∧
          if n ≤ 1 then leaves (if how = .plain ∨ how = .withdrawn then 0 else gap) (.free false) else leaves gap (.passing (n - 1) how)) ∧
        ∀ bits heard, s.alc.unit.rx = .reading bits heard →
          let how := if heard = .cutOff ∧ line = false then .plain else heard
          let after := if how = .plain ∨ how = .withdrawn then 0 else gap
          let read := bits ++ [line]
          let own := if s.alc.unit.tx = [] then none else s.alc.flying
          let place := placeOf bits
          let wrong := own.isSome = true ∧ 2 < s.alc.unit.tx.length ∧ s.alc.unit.tx.headD true ≠ line
          (wrong → t.pending =
            if place.run ≠ 6 ∧ 1 ≤ place.count ∧ place.count ≤ 16 then [.arbitrationLost] else [.attemptFailed]) ∧
          (receive read = .incomplete → leaves gap (.reading read how) ∧ (¬wrong → t.pending = [])) ∧
          (∀ f, receive read = .good f → leaves after (.free false) ∧
            (¬wrong → own = none → t.pending = [telegramCommand f]) ∧
            ∀ e, ¬wrong → own = some e → t.pending = [match e.kind with
              | .claim _ => .ownClaimCompleted
              | .drop _ _ _ => .ownDropCompleted
              | .release _ => .ownReleaseCompleted
              | .dispatch => .ownDispatchCompleted
              | .presence => .ownPresenceCompleted]) ∧
          (receive read = .objected → leaves after (.free false) ∧
            (¬wrong → t.pending = if own = none then [] else [.attemptFailed])) ∧
          ∀ flaw, receive read = .flawed flaw →
            (¬wrong → t.pending = match how with
              | .plain => [.unreadableFrame (classOfBits read) flaw false]
              | .withdrawn => [.unreadableFrame (classOfBits read) flaw true]
              | .abandoned => []
              | .cutOff => []) ∧
            leaves gap (match flaw with
              | .stuffViolation => .free false
              | .badLength => .free false
              | .checkMismatch => .passing (if (placeOf read).run = 6 then 4 else 3) how
              | .dominantEnd => .passing 2 how))) ∧
    (s.due = [] → s.bits = [] →
      let given := s.samples.head?
      let next := (given.map (·.pins)).getD s.sig.pins
      let len (i : Input) : Nat :=
        if i ∈ [Input.feedReq, .cutDone, .colletOpen, .outcomeA, .outcomeB, .setupKey] then s.cfg.filterK[0]
        else if i ∈ [Input.homeSw, .fwdLimit, .guard] then s.cfg.filterK[1]
        else if i ∈ [Input.channel, .spindleEntry, .rackEntry, .remnant] then s.cfg.filterK[2]
        else if i ∈ [Input.trayBottom, .trayEntry, .binEntry, .dropSense] then s.cfg.filterK[3] else 2
      let shown (p : PinSample) (i : Input) : Bool := p.pins.getLsbD i.idx ^^ s.cfg.inPol.getMsbD i.idx
      let sampled (i : Input) := (s.sig.filters[i.idx]).sample (len i) (shown s.sig.pins i) (shown next i)
      let edge (i : Input) (l : Bool) : Prop := (s.sig.filters[i.idx]).acc ≠ none ∧ (sampled i).2 = some l
      let first (i : Input) : Prop := s.running = true ∧ (s.sig.filters[i.idx]).acc = none ∧ (sampled i).2 = some true
      let place : Instr → Nat := fun
        | .encoderEdge _ _ => 0 | .homeSwEdge _ => 1 | .feedReqRaised => 2 | .feedReqDropped => 2 | .cutDoneEdge => 3
        | .colletOpenAsserted => 4 | .colletOpenDropped => 4 | .fwdLimitActive _ => 5 | .guardOpen _ => 6
        | .channelChange _ => 7 | .spindleEntryEdge _ => 8 | .rackEntryEdge => 9 | .remnantEdge => 10
        | .trayBottomChange _ => 11 | .trayEntryEdge => 12 | .binEntryEdge => 13 | .dropSenseEdge => 14 | .indexEdge => 15
        | .homeEdge => 16 | _ => 17
      let less (o : Option Nat) : Option Nat := o.map (· - 1)
      let drive (o : Output) (b : Bool) : PinLevel := if b = s.cfg.outPol.getMsbD o.idx then .low else .high
      t = { s with
        sig := { s.sig with
          filters := t.sig.filters, pins := next, outPins := t.sig.outPins, settling := less s.sig.settling
          zeroDue := t.sig.zeroDue }
        fsq := { s.fsq with
          limit := less s.fsq.limit, escape := less s.fsq.escape, eject := less s.fsq.eject
          still := min 500 (s.fsq.still + 1), quiet := min 500 (s.fsq.quiet + 1) }
        sfc := { s.sfc with
          second := less s.sfc.second
          cutSub := if s.sfc.cutClock = none then s.sfc.cutSub else if s.sfc.cutSub < 9 then s.sfc.cutSub + 1 else 0
          cutClock := s.sfc.cutClock.map fun c => if s.sfc.cutSub < 9 then c else min 1048575 (c + 1) }
        alc := { s.alc with timer := less s.alc.timer }
        psr := { s.psr with
          dispTimer := less s.psr.dispTimer, delivery := s.psr.delivery.map fun d => (d.1, d.2 - 1)
          earlyEdge := less s.psr.earlyEdge, second := less s.psr.second }
        blt := { s.blt with
          advance := s.blt.advance.map fun w => { w with left := w.left - 1 }, homeHeld := less s.blt.homeHeld }
        uns := { s.uns with
          gate := less s.uns.gate, confirm := less s.uns.confirm, catching := s.uns.catching.map fun c => (c.1, c.2 - 1)
          secSub := if s.running = false then s.uns.secSub else if s.uns.secSub < 999 then s.uns.secSub + 1 else 0
          seconds := if s.running = true ∧ 999 ≤ s.uns.secSub then s.uns.seconds + 1 else s.uns.seconds }
        stu := { s.stu with
          retry := less s.stu.retry, load := s.stu.load.map fun l => { l with timer := less l.timer }
          strapMs := if s.stu.phase = .straps then s.stu.strapMs + 1 else s.stu.strapMs
          strapLast := if s.stu.phase = .straps then some next.straps else s.stu.strapLast
          strapRun := if s.stu.phase = .straps then (if s.stu.strapLast = some next.straps then s.stu.strapRun + 1 else 1)
            else s.stu.strapRun }
        mpt := { s.mpt with selected := match given with
          | none => s.mpt.selected
          | some x => if x.csLow then some (portByteNow s) else none }
        samples := s.samples.tail, bits := (given.map (·.line)).getD [], pending := t.pending } ∧
      (t.pending.map place).Pairwise (· < ·) ∧ (t.sig.zeroDue = true ↔ s.sig.zeroArmed = true ∧ edge .homeSw true) ∧
      (∀ c : Instr, c ∈ t.pending ↔
        match c with
        | .encoderEdge a b => (sampled .encA).1.acc = some a ∧ (sampled .encB).1.acc = some b ∧
            ((sampled .encA).2 ≠ none ∨ (sampled .encB).2 ≠ none)
        | .feedReqRaised => edge .feedReq true ∨ first .feedReq
        | .feedReqDropped => edge .feedReq false
        | .cutDoneEdge => edge .cutDone true
        | .colletOpenAsserted => edge .colletOpen true ∨ first .colletOpen
        | .colletOpenDropped => edge .colletOpen false
        | .homeSwEdge l => edge .homeSw l
        | .fwdLimitActive l => edge .fwdLimit l ∨ l = true ∧ first .fwdLimit
        | .guardOpen l => edge .guard l
        | .channelChange l => edge .channel l ∨ l = true ∧ first .channel
        | .spindleEntryEdge l => edge .spindleEntry l
        | .rackEntryEdge => edge .rackEntry true
        | .remnantEdge => edge .remnant true
        | .trayBottomChange l => edge .trayBottom l ∨ l = true ∧ first .trayBottom
        | .trayEntryEdge => edge .trayEntry true
        | .binEntryEdge => edge .binEntry true
        | .dropSenseEdge => edge .dropSense true
        | .indexEdge => edge .index true
        | .homeEdge => edge .home true
        | _ => False) ∧
      (∀ i : Input, (s.sampled next.pins)[i.idx] = sampled i ∧
        (i ∈ [Input.feedReq, .colletOpen, .fwdLimit, .channel, .trayBottom] → first i →
          t.sig.filters[i.idx] = s.sig.filters[i.idx]) ∧
        (i ∉ [Input.feedReq, .colletOpen, .fwdLimit, .channel, .trayBottom] ∨ ¬first i →
          t.sig.filters[i.idx] = (sampled i).1)) ∧
      (∀ o : Output, t.pinState o =
        if s.stu.cfg = none then .highZ
        else if s.flt.level = .safe then
          if o = .attn then drive o (s.commanded o)
          else if o = .machineHold then drive o true
          else
            match s.cfg.safeSel[(o.idx : Nat)]? with
            | some .hold => s.pinState o
            | some .off => drive o false
            | some .on => drive o true
            | some .float => .highZ
            | none => drive o (s.commanded o)
        else drive o (s.commanded o)))

/-- R176, R192: the filter of an input with accepted level `a` and length `k`: a sample at `a` sets the run count to 0; the k-th
consecutive sample at the other level is accepted, and any before it only counts. A filter with no accepted level yet counts equal
samples, begins with 1 at a sample that differs from the one before it, and accepts at the k-th. -/
def Obligations.FilterAcceptsAfterKSamples : Prop :=
  (∀ (f : Filter) (a prev : Bool) (k : Nat), f.acc = some a →
    f.sample k prev a = ({ f with run := 0 }, none) ∧
    (f.run + 1 < k → f.sample k prev (!a) = ({ f with run := f.run + 1 }, none)) ∧
    (k ≤ f.run + 1 → f.sample k prev (!a) = ({ acc := some (!a), run := 0 }, some (!a)))) ∧
  ∀ (f : Filter) (prev now : Bool) (k : Nat), f.acc = none →
    let n := if f.run = 0 ∨ now ≠ prev then 1 else f.run + 1
    (n < k → f.sample k prev now = ({ acc := none, run := n }, none)) ∧
    (k ≤ n → f.sample k prev now = ({ acc := some now, run := 0 }, some now))

/-- POWER_ON_RESET puts every block in its power-on state and starts the STRAPS phase; the input pins, the samples and line
bits to come and the queue are the world's and stay (R214; assumption log 2). The machine after reset meets every law that the
invariants below carry on. -/
def Obligations.PowerOnResetsEveryBlock : Prop :=
  ∀ s : State, exec .powerOnReset s = .next { State.reset with
      sig := { State.reset.sig with pins := s.sig.pins }, samples := s.samples, bits := s.bits, pending := s.pending } ∧
    State.reset.stu.phase = .straps ∧ State.reset.stu.cfg = none ∧ State.reset.flt.level = .normal ∧
    State.reset.alc.st = .off ∧ State.reset.alc.queue = [] ∧ State.reset.alc.alnTx = true ∧ State.reset.blt.sync = .unsynced ∧
    State.reset.psr.peers = [] ∧ State.reset.psr.shuttle = .absent ∧ State.reset.psr.dispatch = .none ∧
    State.reset.bac.current = none ∧ State.reset.bac.rack = [] ∧ State.reset.bac.enRoute = none ∧
    State.reset.uns.hold = [] ∧ State.reset.uns.closing = [] ∧ State.reset.uns.active = [] ∧
    State.reset.sfc.unused = true ∧ State.reset.sfc.cutClock = none ∧ State.reset.fsq.pKnown = false ∧
    State.reset.mpt.job = none ∧ State.reset.mpt.flags = 0 ∧ State.reset.mpt.buffer = .empty ∧
    (∀ o, State.reset.pinState o = .highZ) ∧ (∀ o, State.reset.commanded o = false) ∧
    rackLaw State.reset = true ∧ partLaw State.reset ∧ heldLaw State.reset = true ∧ claimLaw State.reset = true ∧
    pocketLaw State.reset ∧ queueLaw State.reset ∧ peerLaw State.reset

/-! ## Laws every step keeps -/

/-- R3: rack list and en-route records together never number more than 3. -/
def Obligations.RackRecordsNeverExceedThree : Prop :=
  ∀ s t : State, rackLaw s = true → step s = .next t → rackLaw t = true

/-- R135, R138: every part caught was binned, was dropped or waits in the hold queue. -/
def Obligations.EveryCaughtPartIsAccounted : Prop :=
  ∀ s t : State, partLaw s → step s = .next t → partLaw t

/-- R28: a paused feed engine, and the feed engine in SAFE, drives none of its outputs. -/
def Obligations.HeldFeedEngineDrivesNothing : Prop :=
  ∀ s t : State, heldLaw s = true → step s = .next t → heldLaw t = true

/-- R86: the transmit queue stays in ascending order of arbitration value. -/
def Obligations.TransmitQueueStaysSorted : Prop :=
  ∀ s t : State, queueLaw s → step s = .next t → queueLaw t

/-- Section 5.2, R97: the peer table stays in ascending order of address with no address twice, at most 31 records. -/
def Obligations.PeerTableStaysSorted : Prop :=
  ∀ s t : State, peerLaw s → step s = .next t → peerLaw t

/-- R141, R142: the claim table never holds more than 4 entries, and no pocket stands in two of them. -/
def Obligations.ClaimTableHoldsFour : Prop :=
  ∀ s t : State, step s = .next t → (claimLaw s = true → claimLaw t = true) ∧ (pocketLaw s → pocketLaw t)

/-- R214, R216, R219: while the station runs, no step but the power-on changes its phase, its address or its configuration. -/
def Obligations.ConfigurationStandsWhileRunning : Prop :=
  ∀ s t : State, s.running = true → s.stu.load = none → s.pending.head? ≠ some .powerOnReset → step s = .next t →
    t.running = true ∧ t.stu.addrRead = s.stu.addrRead ∧ t.stu.cfg = s.stu.cfg ∧ t.stu.clamped = s.stu.clamped ∧
      t.stu.load = none

/-- R23, R186: the encoder count changes by an encoder edge, by the home zero and by the power-on alone (the read-back of a
CONFIG LOAD ends in the power-on, R218). -/
def Obligations.EncoderCountChangesOnlyByEdges : Prop :=
  ∀ s t : State, step s = .next t → t.fsq.e ≠ s.fsq.e →
    (∃ a b, s.pending.head? = some (.encoderEdge a b)) ∨ (s.pending.head? = some (.homeSwEdge true) ∧ t.fsq.e = 0) ∨
      s.pending.head? = some .powerOnReset ∨ ∃ r, s.pending.head? = some (.configReadbackDone r)

/-- R1: the job, and with it C, is held until the next accepted JOB SET; LOT SET changes its quantity alone (R202). -/
def Obligations.JobIsHeldUntilTheNextJobSet : Prop :=
  ∀ s t : State, step s = .next t → t.mpt.job.map (fun j => { j with q := 0 }) ≠ s.mpt.job.map (fun j => { j with q := 0 }) →
    (∃ p, s.pending.head? = some (.jobSet p)) ∨ s.pending.head? = some .powerOnReset ∨
      ∃ r, s.pending.head? = some (.configReadbackDone r)

/-- R162, R169, R172, R175, R200: the station leaves SAFE by FAULT CLEAR, with the setup key turned and the cover closed, and
by the power-on alone. -/
def Obligations.SafeIsLeftByFaultClearAlone : Prop :=
  ∀ s t : State, s.inSafe = true → step s = .next t → t.inSafe = false →
    (s.inp .setupKey = true ∧ s.inp .guard = true ∧ ∃ p, s.pending.head? = some (.faultClear p)) ∨ s.pending.head? = some .powerOnReset ∨
      ∃ r, s.pending.head? = some (.configReadbackDone r)

/-! ## Words of port and line -/

/-- R69 to R71, R76, R77: what a sender sends of a frame of at most 12 payload bytes, a receiver reads as that frame. -/
def Obligations.FrameSentIsFrameReceived : Prop :=
  ∀ f : Frame, f.payload.length ≤ 12 → receive f.bits = .good f

/-- R197, section 12.2: the bytes clocked for a well-formed command of the port name that command, every payload byte kept. -/
def Obligations.PortFrameNamesItsCommand : Prop :=
  ∀ (i : Instr) (bytes : List Byte), i.wf = true → portFrame i = some bytes → portCommand true bytes = i

/-- R73, R222, section 12.1: the frame that carries a telegram is read as that telegram, every field kept. The key of a frame
has four bits. -/
def Obligations.TelegramFrameNamesItsTelegram : Prop :=
  ∀ (i : Instr) (key : Nat) (f : Frame), i.wf = true → key ≤ 15 →
    (∀ a b t n, i = .dispatch a b t n → b.toNat ≤ 15) → telegramFrame key i = some f → telegramCommand f = i

/-! ## Start-up -/

/-- R214, R215: four equal strap samples give the address: 0 and 63 end in UNCONFIGURED with reason ADDRESS, every other
address starts READING; straps that do not agree in time end in UNCONFIGURED with reason STRAPS. A failed read attempt is made
again after 10 ms, the third ends in UNCONFIGURED with reason MEMORY, and a record of another sum than 0 ends in it with
reason SUM, the working copy left as it is. Nothing else changes. That the row of the retry wait acts whenever it is sent is
the model's choice (assumption log 25). -/
def Obligations.StrapsAndMemoryAreRead : Prop :=
  (∀ (s : State) (a : LineAddr), s.stu.phase = .straps →
    exec (.addressStrapsRead a) s = .next { s with stu :=
      if a = 0 ∨ a = 63 then
        { s.stu with phase := .unconfigured, addrRead := some a, reason := some .address, retry := none }
      else { s.stu with phase := .reading, addrRead := some a, attempts := 0, retry := none } } ∧
    exec .strapsTimeout s = .next
      { s with stu := { s.stu with phase := .unconfigured, reason := some .straps, retry := none } }) ∧
  ∀ s : State, s.stu.phase = .reading →
    exec .configRetryWaitEnd s = .next { s with stu := { s.stu with retry := none } } ∧
    (s.stu.retry = none →
      exec .configReadFail s = .next { s with stu :=
        if 3 ≤ s.stu.attempts + 1 then
          { s.stu with attempts := s.stu.attempts + 1, phase := .unconfigured, reason := some .memory, retry := none }
        else { s.stu with attempts := s.stu.attempts + 1, retry := some 10 } } ∧
      ∀ r : List Byte, wordSum r ≠ 0 → exec (.configReadDone r) s = .next
        { s with stu := { s.stu with phase := .unconfigured, reason := some .sum, retry := none } })

/-- R192, R212, R215, R216: a record of sum 0 fills the working copy and starts SETTLING: every filter and latch starts
afresh, the event sources take their priorities and the threshold, the pocket map its N entries UNKNOWN; nothing else
changes. -/
def Obligations.GoodRecordConfigures : Prop :=
  ∀ (s : State) (r : List Byte), s.stu.phase = .reading → s.stu.retry = none → wordSum r = 0 →
    ∃ t, exec (.configReadDone r) s = .next t ∧
      t.stu = { s.stu with cfg := some (readRecord r).1, clamped := (readRecord r).2, phase := .settling, retry := none } ∧
      (∀ i, t.sig.filters[(i : Input).idx] = { acc := none, run := 0 }) ∧
      t.sig = { s.sig with
        filters := t.sig.filters, settling := some 15, phase := none, cutLatch := none, spindleLatch := none
        remnantLatch := false, rackLatch := false, trayLatch := false, binLatch := false, dropLatch := false
        indexLatch := false, homeLatch := false } ∧
      (∀ i : Fin 16, t.mpt.sources[i] =
        { priority := (readRecord r).1.priorities[i], pending := false, inService := false }) ∧
      t.mpt = { s.mpt with sources := t.mpt.sources, threshold := (readRecord r).1.threshold } ∧
      t.blt = { s.blt with map := List.replicate (readRecord r).1.pockets .unknown } ∧
      t.bac = s.bac ∧ t.fsq = s.fsq ∧ t.sfc = s.sfc ∧ t.alc = s.alc ∧ t.psr = s.psr ∧ t.uns = s.uns ∧ t.flt = s.flt ∧
      t.samples = s.samples ∧ t.bits = s.bits ∧ t.pending = s.pending

/-- R177, R188, R216, R224, section 12.4: whatever the record holds, the working copy has every field in its range; the
polarities, the safe states past the pusher outputs, and stock state and lock of each bar type are those of the record, a
stock state code of 0 or 3 read as BARRED; and a record read without the config-clamped mark is taken as given in every other
field too. -/
def Obligations.WorkingCopyIsInRange : Prop :=
  ∀ r : List Byte, let c := (readRecord r).1
    (1 ≤ c.bitRate ∧ c.bitRate ≤ 3) ∧ (16 ≤ c.pockets ∧ c.pockets ≤ 128) ∧ (1 ≤ c.dropDist ∧ c.dropDist < c.pockets) ∧
    (2 ≤ c.lmin ∧ c.lmin ≤ 8) ∧ (c.lmin ≤ c.lmax ∧ c.lmax ≤ 15) ∧ (2 ≤ c.spacing ∧ c.spacing ≤ 8) ∧
    (1 ≤ c.horizon ∧ c.horizon ≤ 13) ∧ (1 ≤ c.trayCap ∧ c.trayCap ≤ 60) ∧ (1 ≤ c.binCap ∧ c.binCap ≤ 50) ∧
    (∀ i : Fin 4, 2 ≤ c.filterK[i] ∧ c.filterK[i] ≤ 15) ∧ (1 ≤ c.trip ∧ c.trip ≤ 1023) ∧
    (500 ≤ c.tc ∧ c.tc ≤ 60000) ∧ c.runOn ≤ 500 ∧ c.slowZone ≤ 50000 ∧ (25 ≤ c.edges ∧ c.edges ≤ 400) ∧ c.tol ≤ 500 ∧
    (200 ≤ c.catchMs ∧ c.catchMs ≤ 5000) ∧ (50 ≤ c.gateMs ∧ c.gateMs ≤ 500) ∧
    (10000 ≤ c.xFace ∧ c.xFace ≤ 1048575) ∧ c.xEntry < c.xFace ∧ c.pMax + 2000 ≤ c.xFace ∧
    (∀ i : Fin 3, c.safeSel[i.val]? = some .off ∨ c.safeSel[i.val]? = some .float) ∧
    (∀ i : Fin 16, c.priorities[i] ≤ 7) ∧ c.threshold ≤ 7 ∧
    (∀ i : Fin 15, 5000 ≤ c.barTypes[i].nominal ∧ c.barTypes[i].nominal ≤ 400000) ∧
    (let sel (i : Nat) : SafeSel :=
      match fieldNat r 46 3 / 4 ^ (11 - i) % 4 with
      | 0 => .hold
      | 1 => .off
      | 2 => .on
      | _ => .float
    c.inPol = BitVec.ofNat 24 (fieldNat r 41 3) ∧ c.outPol = BitVec.ofNat 16 (fieldNat r 44 2) ∧
    (∀ i : Fin 11, 3 ≤ i.val ∨ (readRecord r).2 = false → c.safeSel[i] = sel i) ∧
    (∀ i : Fin 15, let code := fieldNat r (69 + 4 * i) 1
      c.barTypes[i].stock = (if code % 4 = 1 then .stocked else .barred) ∧
      (c.barTypes[i].locked = true ↔ 128 ≤ code) ∧
      ((readRecord r).2 = false → code % 4 = 1 ∨ code % 4 = 2))) ∧
    ((readRecord r).2 = false →
      c.bitRate = fieldNat r 0 1 ∧ c.pockets = fieldNat r 1 1 ∧ c.dropDist = fieldNat r 2 1 ∧ c.lmin = fieldNat r 3 1 ∧
      c.lmax = fieldNat r 4 1 ∧ c.spacing = fieldNat r 5 1 ∧ c.horizon = fieldNat r 6 1 ∧ c.trayCap = fieldNat r 7 1 ∧
      c.binCap = fieldNat r 8 1 ∧ c.trip = fieldNat r 13 2 ∧ c.tc = fieldNat r 15 2 ∧ c.runOn = fieldNat r 17 2 ∧
      c.slowZone = fieldNat r 19 2 ∧ c.edges = fieldNat r 21 2 ∧ c.tol = fieldNat r 23 2 ∧ c.catchMs = fieldNat r 25 2 ∧
      c.gateMs = fieldNat r 27 2 ∧ c.xEntry = fieldNat r 29 4 ∧ c.xFace = fieldNat r 33 4 ∧ c.pMax = fieldNat r 37 4 ∧
      c.threshold = fieldNat r 65 1 ∧ (∀ i : Fin 16, c.priorities[i] = fieldNat r (49 + i) 1) ∧
      (∀ i : Fin 4, c.filterK[i] = if fieldNat r (9 + i) 1 = 0 then 4 else fieldNat r (9 + i) 1) ∧
      ∀ i : Fin 15, c.barTypes[i].nominal = fieldNat r (66 + 4 * i) 3)

/-- R82, R137, R192, R193, R219: at the report of the inputs the station joins: RUNNING, the line LISTENING with a fresh
timer, nothing driven and the wait for 10 recessive bits, the one-second timers and the seconds started, every latch cleared
but that of CUT_DONE, which HOMING consumes with the notice UNEXPECTED_CUT, FEED_REQ read, a bar in the channel recorded as
FOUND, a part at the tray bottom that no record accounts for recorded, the engine in HOMING; an open cover takes the station
to SAFE with GUARD_OPEN. An input that SETTLE_TIMEOUT reports unsettled reads as inactive. -/
def Obligations.JoinBringsTheStationIntoService : Prop :=
  ∀ (s : State) (i : Instr) (settled levels : InputBits), s.stu.phase = .settling →
    (i = .join levels ∧ settled = BitVec.allOnes 21 ∨ i = .settleTimeout settled levels) →
    (∀ j : Input, settled.getLsbD j.idx = false → (s.sig.filters[j.idx]).acc = none) →
    ∃ t, exec i s = .next t ∧ t.stu = { s.stu with phase := .running } ∧
      (∀ j : Input, t.inp j = (settled.getLsbD j.idx && levels.getLsbD j.idx)) ∧
      (∀ j : Input, settled.getLsbD j.idx = true → (s.sig.filters[j.idx]).acc = some (levels.getLsbD j.idx) →
        t.sig.filters[j.idx] = s.sig.filters[j.idx]) ∧
      t.sig.spindleLatch = none ∧ t.sig.remnantLatch = false ∧ t.sig.rackLatch = false ∧ t.sig.trayLatch = false ∧
      t.sig.binLatch = false ∧ t.sig.dropLatch = false ∧ t.sig.indexLatch = false ∧ t.sig.homeLatch = false ∧
      (∀ c, s.sig.cutLatch = some c → t.sig.cutLatch = none ∧ t.flt.last = some (.unexpectedCut, none) ∧
        t.flt.notices = s.flt.notices + 1) ∧
      t.alc.st = .listening ∧ t.alc.timer = some 2000 ∧ t.alc.waitGap = true ∧ t.alc.unit = ⟨[], 0, .free false⟩ ∧
      t.psr.second = some 1000 ∧ t.sfc.second = some 1000 ∧ t.uns.seconds = 0 ∧
      t.fsq.st = .homing ∧ t.fsq.request = t.inp .feedReq ∧
      (t.inp .channel = true → s.bac.current = none →
        ∃ b, t.bac.current = some b ∧ b.origin = .found ∧ b.length = none ∧ b.verified = false) ∧
      (t.inp .guard = false → s.flt.level = .normal → t.inSafe = true ∧ ∃ c, t.flt.safe = some c ∧ c.kind = .guardOpen ∧
        c.engine = .station ∧ c.fromLevel = some .normal ∧ c.active = true) ∧
      (s.uns.closing = [] → s.uns.active = [] →
        if t.inp .trayBottom = true ∧ (∀ r ∈ s.uns.hold, r.dropped = true) ∧ s.uns.catching = none ∧ s.uns.confirm = none ∧
            s.uns.hold.length < 6 then
          t.uns.hold = s.uns.hold ++ [⟨s.uns.seq, none, .unknown, 0, none, false⟩] ∧ t.uns.seq = s.uns.seq + 1 ∧
            t.uns.caught = s.uns.caught + 1
        else t.uns.hold = s.uns.hold ∧ t.uns.seq = s.uns.seq ∧ t.uns.caught = s.uns.caught) ∧
      t.samples = s.samples ∧ t.bits = s.bits ∧ t.pending = s.pending

/-! ## The machine port -/

/-- R198: while the buffer is PENDING a command frame is not taken: it changes what MISO carries and nothing else. A command
is decided at the edge that ends its frame (assumption log 6). -/
def Obligations.PendingBufferTakesNoCommand : Prop :=
  ∀ (i : Instr) (s : State) (b : Byte × List Byte) (r : Option Response), portBody i = some b → (∀ n, i ≠ .readResponse n) →
    s.mpt.buffer = .pending r → exec i s = .next (framed i s)

/-- R199, R200: the checks in their order; the first that fails gives the status, and the command then has no effect. A
command byte is unknown where it names no command; STATUS READ passes the second and the third check, CONFIG LOAD the third;
the setup key is the accepted level of SETUP_KEY. A READ RESPONSE byte with a payload fails the length check (assumption log
6). -/
def Obligations.PortChecksInOrder : Prop :=
  ∀ (i : Instr) (s : State) (b : Byte × List Byte) (st : Status), i.wf = true → portBody i = some b →
    (∀ n, i ≠ .readResponse n) → s.mpt.takes = true →
    (if commandLength b.1 = none then some .unknown
      else if b.1 ≠ 0x20 ∧ (s.stu.phase = .straps ∨ s.stu.phase = .reading ∨ s.stu.phase = .settling) then some .busy
      else if b.1 ≠ 0x20 ∧ b.1 ≠ 0x7F ∧ s.stu.phase = .unconfigured then some .unconfigured
      else if commandLength b.1 ≠ some b.2.length then some .range
      else if needsSetup i = true ∧ s.inp .setupKey = false then some .setup
      else none) = some st →
    exec i s = .next (answered (framed i s) st [])

/-- R197 to R199: a malformed frame is answered RANGE where the buffer takes a command, and one whose byte names no command
UNKNOWN, MISO carrying the port byte and then zeros; a READ RESPONSE frame carries the port byte, a zero, and the response
with its length where it is READY, NOT_READY otherwise, as far as it is clocked, and changes nothing else; the placing of a
response makes it READY. The port byte is that of the falling edge of CS_N, buffer state and ATTN; what a frame carries past
the last data byte is free (assumption log 6). -/
def Obligations.FramesThatAreNoCommand : Prop :=
  ∀ s : State,
    (∀ n, exec (.malformedFrame n) s = .next
      (if s.mpt.takes then answered (clockedFor n s) .range [] else clockedFor n s)) ∧
    (∀ (n : Nat) (whole : List Byte),
      (whole = match s.mpt.buffer with
        | .ready r => [portByteNow s, 0, BitVec.ofNat 8 r.status.code, BitVec.ofNat 8 r.data.length] ++ r.data
        | .empty => [portByteNow s, 0, BitVec.ofNat 8 Status.notReady.code, 0]
        | .pending _ => [portByteNow s, 0, BitVec.ofNat 8 Status.notReady.code, 0]) →
      ∃ past : List Byte, past.length = n - whole.length ∧
        exec (.readResponse n) s = .next { s with mpt := { s.mpt with miso := whole.take n ++ past, selected := none } }) ∧
    (∀ r, s.mpt.buffer = .pending (some r) →
      exec .responsePlaced s = .next { s with mpt := { s.mpt with buffer := .ready r } }) ∧
    ((∀ r, s.mpt.buffer ≠ .pending (some r)) → exec .responsePlaced s = .next s) ∧
    ∀ c p, commandLength c = none → s.mpt.takes = true →
      let i := Instr.unknownCommand c p
      exec i s = .next (answered (framed i s) .unknown [])

/-- R131, R173, R203, R204, R223, section 12.3: the reads return the fields of their tables, in their order and at their
widths, and change no state; STATUS READ is served in every phase, and a selector that names no page is answered RANGE. Every
place of the STATION, PEER, POCKET and HOLD pages, of FAULT READ and of COUNTS READ is given here with its value, an absent
value with all bits set, an absent signed one as the most negative, an absent enumeration 0. Before the configuration is read
the STATION page carries its first group alone. A byte of marks that reads as absent is unstated (assumption log 8). The
signed W, the code of the shuttle state, the layout of the stock byte and of an empty claim entry, and the gate state byte are
the model's choice (assumption log 15), as is what an input shows that has no accepted level yet, and the cover with it, in
SETTLING: 0 (R192 speaks of the owners from the 15 ms report on; assumption log 26). Of the waiting mark of the feed group the
spec is silent while the engine is held: that it is clear for an interrupted waiting move and set in a bar-end wait is the
model's choice (assumption log 20). -/
def Obligations.ReadsReturnDataAndChangeNothing : Prop :=
  let num (w x : Nat) : Nat × Option Nat := (w, some x)
  let flag (b : Bool) : Nat × Option Nat := (1, some b.toNat)
  let free (w : Nat) : Nat × Option Nat := (w, none)
  let opt (w : Nat) (o : Option Nat) : Nat × Option Nat := (w, some (o.getD (256 ^ w - 1)))
  let int (o : Option Int) : Nat × Option Nat := (4, some ((o.getD (-2147483648)) % 4294967296).toNat)
  let bar : Option BarRec → List (Nat × Option Nat)
    | some b => [num 1 b.origin.code, opt 1 b.barType, opt 3 b.length, num 1 (b.verified.toNat + 2 * b.wrongType.toNat)]
    | none => [num 1 0, opt 1 none, opt 3 none, free 1]
  let claim : Option (Nat × Nat × Option Nat) → List (Nat × Option Nat)
    | some c => [num 1 c.1, num 1 c.2.1, opt 1 c.2.2]
    | none => [opt 1 none, num 1 0, opt 1 none]
  let capture : Option Capture → List (Nat × Option Nat)
    | some c => [num 1 c.kind.code, num 1 c.engine.code, num 1 c.state.code, opt 2 c.ctx, flag c.active]
    | none => [num 1 0, num 1 0, num 1 0, opt 2 none, num 1 0]
  [Phase.straps, .reading, .settling, .running, .unconfigured].map Phase.code = [1, 2, 3, 4, 5] ∧
  [Reason.straps, .address, .memory, .sum].map Reason.code = [1, 2, 3, 4] ∧
  [Level.normal, .alert, .safe].map Level.code = [1, 2, 3] ∧
  [FeedState.homing, .noJob, .remeasure, .noBar, .loading, .measuring, .positioning, .ready, .feeding, .cutting, .barEnd,
    .ejecting, .lotDone].map FeedState.code = [1, 2, 3, 4, 5, 6, 7, 8, 9, 10, 11, 12, 13] ∧
  [Origin.shuttle, .manual, .found].map Origin.code = [1, 2, 3] ∧ [Stock.stocked, .barred].map Stock.code = [1, 2] ∧
  [DispatchState.none, .waiting, .queued, .sent, .enRoute].map DispatchState.code = [1, 2, 3, 4, 5] ∧
  [ShuttleState.absent, .idle, .busy 1 1 1, .fault .laneEmpty 1].map ShuttleState.code = [0, 1, 2, 3] ∧
  [ShuttleFaultKind.laneEmpty, .stopped].map ShuttleFaultKind.code = [1, 2] ∧
  [LineState.off, .listening, .active, .withdrawn, .quiet].map LineState.code = [1, 2, 3, 4, 5] ∧
  [Sync.unsynced, .filling 0 0, .synced 0].map Sync.code = [1, 2, 3] ∧
  [Summary.safe, .alert, .noJob, .lotDone, .hold, .run].map Summary.code = [1, 2, 3, 4, 5, 6] ∧
  [Mark.good, .sample, .unverified].map Mark.code = [1, 2, 3] ∧
  [Outcome.good, .sample, .unknown].map Outcome.code = [1, 2, 3] ∧
  [Engine.feed, .unload, .station].map Engine.code = [1, 2, 3] ∧
  [CapturedState.drop .partInTray, .drop .trayEmpty, .feed .cutting].map CapturedState.code = [1, 2, 10] ∧
  [PinLevel.low, .high, .highZ].map PinLevel.code = [0, 1, 2] ∧
  [FaultKind.pusherStall, .colletNotOpen, .colletClosedInMotion, .feedDeviation, .barNotSeen, .wrongBar, .measureFail,
    .dropUnconfirmed, .gripShort, .overtravel, .homeFail, .guardOpen, .partMissing, .shortBar, .barLengthOdd, .unexpectedCut,
    .dispatchMiss, .shuttleSilent, .deliveryMissing, .stockOut, .rackOverfill, .lineDiscard, .lineWithdrawn, .addressClash,
    .beltSyncLost, .beltSizeMismatch, .claimConflict].map FaultKind.code = (List.range 27).map (· + 1) ∧
  ∀ s : State, s.mpt.takes = true →
    (s.running = true →
      (∃ d, exec (.jobRead []) s = .next (answered (framed (.jobRead []) s) .done d) ∧
        (∀ j, s.mpt.job = some j → j.inRange = true → j.q < 65536 →
          d.length = 21 ∧ fieldNat d 0 1 = 1 ∧ jobOf (slice d 1 15) = j ∧
          fieldNat d 19 2 = s.mpt.lotNo.toNat ∧ (s.mpt.lotCount < 16777216 → fieldNat d 16 3 = s.mpt.lotCount)) ∧
        (s.mpt.job = none → Lays d [num 1 0, num 3 s.mpt.lotCount, num 2 s.mpt.lotNo.toNat])) ∧
      (∃ d, exec (.countsRead []) s = .next (answered (framed (.countsRead []) s) .done d) ∧ d.length = 24 ∧
        Lays d [num 1 s.bac.tray, num 1 s.cfg.trayCap, num 1 s.bac.bin, num 1 s.cfg.binCap, num 4 s.uns.caught.toNat,
          num 4 s.uns.binned.toNat, num 4 s.uns.dropped.toNat, num 2 s.alc.failed.toNat, num 2 s.alc.discards.toNat,
          num 2 s.alc.objections.toNat, num 2 s.sig.skips.toNat]) ∧
      ∃ d, exec (.faultRead []) s = .next (answered (framed (.faultRead []) s) .done d) ∧ d.length = 27 ∧
        Lays d ([num 1 s.flt.level.code] ++ capture s.flt.alert ++ capture s.flt.safe ++
          [num 1 (((s.flt.safe.bind (·.fromLevel)).map Level.code).getD 0), num 1 s.flt.further, num 2 s.flt.furtherSet.toNat,
           num 1 ((s.flt.feedPaused.map (·.1.code)).getD 0), num 1 ((s.flt.feedPaused.map (·.2.code)).getD 0),
           num 1 ((s.flt.unloadPaused.map (·.1.code)).getD 0), num 1 ((s.flt.unloadPaused.map (·.2.code)).getD 0),
           num 1 ((s.flt.last.map (·.1.code)).getD 0), opt 2 (s.flt.last.bind (·.2)), num 2 s.flt.notices.toNat,
           flag (s.inp .guard)])) ∧
    ∀ sel idx : Byte, let i := Instr.statusRead [sel, idx]
      if 1 ≤ sel.toNat ∧ sel.toNat ≤ 4 then
        let place {α : Type} (l : List α) : Option α := if idx = 0 then none else l[idx.toNat - 1]?
        let start := [num 1 s.stu.phase.code, num 1 ((s.stu.reason.map Reason.code).getD 0),
          opt 1 (s.stu.addrRead.map BitVec.toNat), flag s.stu.clamped]
        ∃ d, exec i s = .next (answered (framed i s) .done d) ∧
          d.length = (if sel = 1 then 154 else if sel = 2 then 11 else if sel = 3 then 6 else 12) ∧
          (sel = 1 → s.stu.cfg = none ∨ s.mpt.job = none → fieldNat d 64 1 % 128 = 0) ∧
          (sel = 1 → s.stu.cfg.isSome = true → Lays d (start ++
            [num 1 s.flt.level.code, flag (s.inp .guard)] ++
            [num 1 s.fsq.st.code, num 1 (s.flt.feedPaused.isSome.toNat + 2 * s.fsq.pauseWatch.toNat +
               4 * ((s.fsq.move.any (·.phase == .waiting) || s.fsq.move.isNone && s.fsq.st == .barEnd) &&
                 !s.inp .colletOpen).toNat),
             int s.posn, int s.fsq.pCut, int s.fsq.target, flag s.fsq.request, int s.fsq.watchPos,
             num 1 (s.fsq.watchArmed.toNat + 2 * s.fsq.watchHit.toNat + 4 * s.fsq.watchFwd.toNat)] ++
            bar s.bac.current ++ bar s.bac.rack[0]? ++ bar s.bac.rack[1]? ++ bar s.bac.rack[2]? ++ bar s.bac.enRoute ++
            [int s.lr, num 2 s.np, opt 2 (s.mpt.job.map fun j => j.lp + j.wc + j.af)] ++
            (match s.mpt.job with
              | some j => [num 1 ((s.typeCfg j.barType).stock.code + 128 * (s.typeCfg j.barType).locked.toNat),
                  num 1 (s.learnedOf j.barType).count, num 3 (((s.learnedOf j.barType).la4 + 2) / 4),
                  num 1 (s.learnedOf j.barType).hold]
              | none => [free 1, opt 1 none, opt 3 none, opt 1 none]) ++
            [flag s.mpt.job.isSome, num 3 ((s.sfc.ta8 + 4) / 8), opt 2 (s.sfc.values.map (·.stock)),
             opt 1 (s.sfc.values.map (·.k)), opt 3 (s.sfc.values.map (·.rest)), opt 2 (s.sfc.values.map (·.starveS)),
             opt 2 (s.sfc.values.map (·.qAhead)), opt 1 s.sfc.need.baseBand, opt 1 s.sfc.need.escBand,
             flag s.sfc.need.active, flag s.sfc.starve] ++
            [num 1 s.psr.dispatch.code, num 1 s.psr.misses, num 1 s.psr.shuttle.code] ++
            (match s.psr.shuttle with
              | .busy st ty left => [num 1 st, num 1 ty, num 2 left, num 1 0, opt 1 none]
              | .fault k st => [opt 1 none, opt 1 none, opt 2 none, num 1 k.code, num 1 st]
              | .absent => [opt 1 none, opt 1 none, opt 2 none, num 1 0, opt 1 none]
              | .idle => [opt 1 none, opt 1 none, opt 2 none, num 1 0, opt 1 none]) ++
            [num 2 s.psr.shuttleAge, num 1 s.psr.peers.length, flag s.psr.overflow] ++
            [num 1 s.alc.st.code, num 1 s.alc.queue.length, flag s.alc.mute, flag s.alc.doubt] ++
            [num 1 s.blt.sync.code] ++
            (match s.blt.sync with
              | .unsynced => [opt 1 none, opt 1 none]
              | .filling b f => [num 1 b, num 1 f]
              | .synced b => [num 1 b, opt 1 none]) ++
            [num 1 s.blt.misses, flag s.blt.mismatch, num 1 (s.blt.map.countP fun e => e = .unknown),
             num 1 (s.blt.map.countP fun e => e = .free), num 1 (s.blt.map.countP fun e => e = .claimed s.own),
             num 1 (s.blt.map.countP fun | .claimed o => o ≠ s.own | .unknown | .free | .loaded .. => false),
             num 1 (s.blt.map.countP fun | .loaded .. => true | .unknown | .free | .claimed _ => false)] ++
            [num 1 s.uns.hold.length, flag (decide (4 ≤ s.uns.hold.length)), flag s.flt.unloadPaused.isSome,
             flag s.uns.gate.isSome,
             flag ((s.psr.peers.any fun p => p.pressed && decide (p.ds < s.cfg.dropDist)) && decide (s.uns.hold.length < 4)),
             num 1 s.uns.yield] ++
            (let table := (s.uns.closing.map fun c => (c.pocket, (match c.stage with
                | .dropping => 4
                | .awaitConfirm | .awaitDrop | .awaitRelease | .awaitClaim => 5), none)) ++
              s.uns.active.map fun c => (c.pocket, (match c.stage with
                | .queued => 1
                | .held => 2
                | .armed => 3), s.arrival c.pocket)
             claim table[0]? ++ claim table[1]? ++ claim table[2]? ++ claim table[3]?) ++
            [num 1 s.mpt.flags.toNat, num 1 ((s.flt.feedPaused.isSome || s.flt.level == .safe).toNat +
               2 * (s.running && (decide (6 ≤ s.uns.hold.length) || decide (s.cfg.binCap ≤ s.bac.bin))).toNat),
             num 2 (weigh (s.mpt.sources.toList.reverse.map (·.pending))),
             num 2 (weigh (s.mpt.sources.toList.reverse.map (·.inService)))] ++
            [num 2 (8 * weigh (Output.all.map s.commanded)),
             num 4 (64 * Output.all.foldl (fun v o => 4 * v + (s.pinState o).code) 0)] ++
            [num 3 (8 * weigh (Input.all.map s.inp)),
             num 2 (128 * weigh [s.sig.cutLatch.isSome, s.sig.spindleLatch.isSome, s.sig.remnantLatch, s.sig.rackLatch,
               s.sig.trayLatch, s.sig.binLatch, s.sig.dropLatch, s.sig.indexLatch, s.sig.homeLatch]),
             num 1 s.cfg.filterK[0], num 1 s.cfg.filterK[1], num 1 s.cfg.filterK[2], num 1 s.cfg.filterK[3]])) ∧
          (sel = 1 → s.stu.cfg = none → Lays d (start ++
            [num 1 0, free 1] ++ [num 1 0, free 1, int none, int none, int none, free 1, int none, free 1] ++
            bar none ++ bar none ++ bar none ++ bar none ++ bar none ++
            [int none, opt 2 none, opt 2 none] ++ [free 1, opt 1 none, opt 3 none, opt 1 none] ++
            [free 1, opt 3 none, opt 2 none, opt 1 none, opt 3 none, opt 2 none, opt 2 none, opt 1 none, opt 1 none,
             free 1, free 1] ++
            [num 1 0, opt 1 none, num 1 0, opt 1 none, opt 1 none, opt 2 none, num 1 0, opt 1 none, opt 2 none, opt 1 none,
             free 1] ++
            [num 1 0, opt 1 none, free 1, free 1] ++
            [num 1 0, opt 1 none, opt 1 none, opt 1 none, free 1, opt 1 none, opt 1 none, opt 1 none, opt 1 none, opt 1 none] ++
            [opt 1 none, free 1, free 1, free 1, free 1, opt 1 none] ++
            claim none ++ claim none ++ claim none ++ claim none ++
            [free 1, free 1, free 2, free 2] ++ [free 2, free 4] ++
            [free 3, free 2, opt 1 none, opt 1 none, opt 1 none, opt 1 none])) ∧
          (sel = 2 → Lays d (match place s.psr.peers with
            | some p => [num 1 p.addr, num 1 p.age, num 1 p.ds, num 1 p.n,
                num 1 (p.fill + 16 * p.pressed.toNat + 128 * p.need.isSome.toNat), num 1 p.summary.code, flag p.need.isSome,
                opt 1 (p.need.map (·.band)), opt 1 (p.need.map (·.barType)), opt 2 (p.need.map (·.trip))]
            | none => [num 1 0, opt 1 none, opt 1 none, opt 1 none, free 1, num 1 0, free 1, opt 1 none, opt 1 none,
                opt 2 none])) ∧
          (sel = 3 → Lays d ([num 1 idx.toNat] ++ match (s.blt.map[idx.toNat]?).getD .unknown with
            | .unknown => [num 1 1, opt 1 none, num 1 0, opt 2 none]
            | .free => [num 1 2, opt 1 none, num 1 0, opt 2 none]
            | .claimed o => [num 1 3, num 1 o, num 1 0, opt 2 none]
            | .loaded o m q => [num 1 4, num 1 o, num 1 m.code, num 2 q.toNat])) ∧
          (sel = 4 → Lays d (match place s.uns.hold with
            | some r => [num 1 idx.toNat, num 2 r.seq.toNat, opt 2 (r.lot.map BitVec.toNat), num 1 r.outcome.code,
                num 4 r.stamp.toNat, num 1 ((r.origin.map Origin.code).getD 0),
                num 1 (r.lot.isSome.toNat + 2 * r.dropped.toNat)]
            | none => [num 1 0, opt 2 none, opt 2 none, num 1 0, opt 4 none, num 1 0, free 1]))
      else exec i s = .next (answered (framed i s) .range [])

/-- R20, R44, R201: JOB SET is refused with BUSY, RANGE and TYPE in that order; accepted, it writes the job, sets the lot
count to 0, raises the lot number, brings every bar record under the new job, seeds Ta8, takes the engine on, and answers the
lot number. -/
def Obligations.JobSetIsAccepted : Prop :=
  ∀ (s : State) (p : List Byte), let i := Instr.jobSet p
    served i s = true → let f := framed i s
    let j := jobOf p
    let v : State := { f with
      mpt := { f.mpt with job := some j, lotCount := 0, lotNo := s.mpt.lotNo + 1 }
      bac := { s.bac with
        current := s.bac.current.map (BarRec.underJob j), rack := s.bac.rack.map (BarRec.underJob j)
        enRoute := s.bac.enRoute.map (BarRec.underJob j) }
      sfc := { s.sfc with ta8 := 8 * j.tn } }
    let open' := s.fsq.st = .noJob ∨ s.fsq.st = .noBar ∨ s.fsq.st = .ready ∨ s.fsq.st = .lotDone
    (¬open' → exec i s = .next (answered f .busy [])) ∧
    (open' → j.inRange = false → exec i s = .next (answered f .range [])) ∧
    (open' → j.inRange = true → (s.typeCfg j.barType).stock = .barred → exec i s = .next (answered f .type [])) ∧
    (open' → j.inRange = true → (s.typeCfg j.barType).stock = .stocked → ∃ t, exec i s = .next t ∧
      Follows true f (answered (v.engineAtJob).engine .done (beBytes 2 (s.mpt.lotNo + 1).toNat)) t ∧
      v.engineAtJob.mpt = v.mpt ∧ v.engineAtJob.sfc = v.sfc ∧ v.engineAtJob.bac.rack = v.bac.rack ∧
      v.engineAtJob.fsq.st =
        (match s.fsq.st with
        | .noJob => if s.inp .channel then .remeasure else .noBar
        | .noBar => .noBar
        | .ready => if s.bac.current.isSome ∧ s.fsq.pCut.isSome ∧ v.np = 0 then .barEnd else .ready
        | _ => if s.bac.current = none then .noBar else if v.np = 0 then .barEnd else .ready)) ∧
    ∀ b : BarRec, b.underJob j = { b with
      barType := some (b.barType.getD j.barType), wrongType := decide (b.barType.getD j.barType ≠ j.barType) }

/-- R44, R202: LOT SET needs a job and an open engine state, and a count not above the quantity; accepted, it writes quantity,
count and number and the engine enters or leaves LOT_DONE. -/
def Obligations.LotSetIsAccepted : Prop :=
  ∀ (s : State) (p : List Byte), let i := Instr.lotSet p
    served i s = true → let f := framed i s
    let q := fieldNat p 0 2
    let count := fieldNat p 2 3
    let open' := s.fsq.st = .noJob ∨ s.fsq.st = .noBar ∨ s.fsq.st = .ready ∨ s.fsq.st = .lotDone
    (s.mpt.job = none → exec i s = .next (answered f .state [])) ∧
    ∀ j, s.mpt.job = some j → let full := if q = 0 then 65536 else q
      (¬open' → exec i s = .next (answered f .busy [])) ∧
      (open' → full < count → exec i s = .next (answered f .range [])) ∧
      (open' → count ≤ full → let v : State := { f with mpt := { f.mpt with
          job := some { j with q := q }, lotCount := count, lotNo := BitVec.ofNat 16 (fieldNat p 5 2) } }
        ∃ t, exec i s = .next t ∧ Follows true f (answered (v.engineAtLot).engine .done []) t ∧
          v.engineAtLot.mpt = v.mpt ∧ v.engineAtLot.bac = s.bac ∧
          v.engineAtLot.fsq.st =
            (match s.fsq.st with
            | .noJob => .noJob
            | .lotDone =>
              if full ≤ count then .lotDone
              else if s.bac.current = none then .noBar else if v.np = 0 then .barEnd else .ready
            | st => if full ≤ count then .lotDone else st))

/-- R205: the flag commands set, clear and flip the flags of the mask and answer the flags; a mask that names another bit is
refused with RANGE. -/
def Obligations.FlagCommandsWriteTheFlags : Prop :=
  ∀ (s : State) (mask : Byte) (i : Instr) (flags : BitVec 5),
    (i = .flagsSet [mask] ∧ flags = s.mpt.flags ||| mask.extractLsb' 0 5 ∨
      i = .flagsClear [mask] ∧ flags = s.mpt.flags &&& ~~~(mask.extractLsb' 0 5) ∨
      i = .flagsFlip [mask] ∧ flags = s.mpt.flags ^^^ mask.extractLsb' 0 5) →
    served i s = true → let f := framed i s
    if mask.toNat < 32 then
      ∃ t, exec i s = .next t ∧
        Follows false f (answered ({ f with mpt := { f.mpt with flags := flags } } : State).engine .done
          [BitVec.ofNat 8 flags.toNat]) t
    else exec i s = .next (answered f .range [])

/-- R208, R209: EVENT CLAIM takes, of the claimable sources, the one of the highest priority and among equals the lowest ID,
puts it in service and answers its ID; with none claimable it answers 0 and changes nothing. -/
def Obligations.EventClaimTakesTheHighestPriority : Prop :=
  ∀ s : State, let i := Instr.eventClaim []
    served i s = true → let f := framed i s
    let claimable (k : Fin 16) : Prop := s.mpt.sources[k].pending = true ∧ s.mpt.sources[k].inService = false ∧
      s.mpt.threshold < s.mpt.sources[k].priority
    (∀ k, claimable k →
      (∀ k', claimable k' → s.mpt.sources[k'].priority < s.mpt.sources[k].priority ∨
        s.mpt.sources[k'].priority = s.mpt.sources[k].priority ∧ k ≤ k') →
      let x : Source := { s.mpt.sources[k] with pending := false, inService := true }
      exec i s = .next (answered { f with mpt := { f.mpt with sources := s.mpt.sources.set k x } } .done
        [BitVec.ofNat 8 (k.val + 1)])) ∧
    ((∀ k, ¬claimable k) → exec i s = .next (answered f .done [0]))

/-- R210, R211: EVENT COMPLETE ends the service of a source that is in service and says so; EVENT PRIORITY SET and EVENT
THRESHOLD SET write the value, at most 7, and answer it; an ID outside 1 to 16 is refused with RANGE. -/
def Obligations.EventMarksAreWritten : Prop :=
  ∀ (s : State) (id v : Byte), s.running = true → s.mpt.takes = true →
    let c := Instr.eventComplete [id]
    let p := Instr.eventPrioritySet [id, v]
    let t := Instr.eventThresholdSet [v]
    let w := min 7 v.toNat
    (∀ k : Fin 16, id.toNat = k.val + 1 → let x := s.mpt.sources[k]
      (x.inService = true → exec c s = .next (answered { framed c s with mpt := { (framed c s).mpt with
        sources := s.mpt.sources.set k { x with inService := false } } } .done [1])) ∧
      (x.inService = false → exec c s = .next (answered (framed c s) .done [0])) ∧
      exec p s = .next (answered { framed p s with mpt := { (framed p s).mpt with
        sources := s.mpt.sources.set k { x with priority := w } } } .done [BitVec.ofNat 8 w])) ∧
    (id.toNat = 0 ∨ 16 < id.toNat →
      exec c s = .next (answered (framed c s) .range []) ∧ exec p s = .next (answered (framed p s) .range [])) ∧
    exec t s = .next (answered { framed t s with mpt := { (framed t s).mpt with threshold := w } } .done [BitVec.ofNat 8 w])

/-- R154, R169 to R171: RESUME is refused with STATE unless the level is ALERT and the named engine is paused by a fault, and
with RANGE where it names no engine or no action. Accepted, it clears that pause, marks the interval as unused and returns the
level to NORMAL where no engine stays paused; RETRY sets the feed engine going again, and SKIP is refused where its table says
so and acts as the table gives otherwise. RETRY repeats the step of the state (R47): HOMING, LOADING and EJECTING begin theirs
anew, a bar-end wait too, REMEASURE and MEASURING drive back to 0 first and then forward again, and in every other state an
interrupted move is taken up again. That the way back is a move of R24 to the target 0 is the model's choice (assumption log
19). Which of STATE and RANGE answers a code that names no engine or no action where the state condition fails too is the
model's choice as well (assumption log 31). -/
def Obligations.ResumeFollowsItsTable : Prop :=
  (∀ s : State, s.fsq.begun = true → s.fsq.retry = true →
    let b : State := { s with fsq := { s.fsq with retry := false } }
    s.engineStep = some (match s.fsq.st with
      | .homing | .loading | .ejecting => { b with fsq := { b.fsq with begun := false, move := none, limit := none } }
      | .remeasure | .measuring => State.drive { b with fsq := { b.fsq with
          trip := none, move := some ⟨.homeward, .rev, some 0, .waiting, false, false⟩ } }
      | .barEnd => if s.fsq.move = none then { b with fsq := { b.fsq with begun := false } } else b
      | _ => b)) ∧
  (∀ (s : State) (m : Move), s.fsq.begun = true → s.fsq.retry = false → s.fsq.move = some m → m.leg = .homeward →
    m.phase = .coasting → 20 ≤ s.fsq.still →
    let forth (v : State) : State := State.drive { v with fsq := { v.fsq with
      move := some ⟨.main, .fwd, some s.cfg.pMax, .waiting, false, false⟩ } }
    (s.fsq.st = .remeasure → s.engineStep = some (forth s)) ∧
    (s.fsq.st = .measuring → s.engineStep = some (
      if s.inp .spindleEntry then State.stepFeed { s with fsq := { s.fsq with move := none } } .measureFail (some 0)
      else forth { s with sig := { s.sig with spindleLatch := none }, fsq := { s.fsq with trip := none } }))) ∧
  ∀ (s : State) (engine action : Byte), let i := Instr.resume [engine, action]
    served i s = true → let f := framed i s
    let cleared (g : Flt) : Flt := if g.feedPaused.isNone ∧ g.unloadPaused.isNone then
      { g with level := .normal, alert := g.alert.map fun c => { c with active := false },
               safe := g.safe.map fun c => { c with active := false } } else g
    (s.flt.level ≠ .alert → exec i s = .next (answered f .state [])) ∧
    (s.flt.level = .alert → engine ≠ 1 → engine ≠ 2 → exec i s = .next (answered f .range [])) ∧
    (s.flt.level = .alert → engine = 1 → s.flt.feedPaused = none → exec i s = .next (answered f .state [])) ∧
    (s.flt.level = .alert → engine = 2 → s.flt.unloadPaused = none → exec i s = .next (answered f .state [])) ∧
    (s.flt.level = .alert → (engine = 1 ∧ s.flt.feedPaused.isSome ∨ engine = 2 ∧ s.flt.unloadPaused.isSome) →
      action ≠ 1 → action ≠ 2 → exec i s = .next (answered f .range [])) ∧
    (s.flt.level = .alert → engine = 2 → s.flt.unloadPaused.isSome → (action = 1 ∨ action = 2) →
      let u : State := { f with flt := cleared { s.flt with unloadPaused := none }, sfc := { s.sfc with unused := true } }
      ∃ t, exec i s = .next t ∧ Follows false f (answered u.engine .done []) t) ∧
    ∀ k st, s.flt.level = .alert → engine = 1 → s.flt.feedPaused = some (k, st) →
      let u : State := { f with flt := cleared { s.flt with feedPaused := none }, sfc := { s.sfc with unused := true } }
      (action = 1 → ∃ t, exec i s = .next t ∧
        Follows false f (answered (State.engine { u with fsq := { u.fsq with retry := true } }) .done []) t) ∧
      (action = 2 →
        (skipEffect k st s.fsq.st = .refused → exec i s = .next (answered f .state [])) ∧
        (skipEffect k st s.fsq.st ≠ .refused → ∃ t, exec i s = .next t ∧
          Follows false f (answered (u.skip (skipEffect k st s.fsq.st)).engine .done []) t))

/-- R24, R170: the table of SKIP. In the state the fault was raised in: a stalled or closed feed, positioning or retract is
over where the pusher has settled, its move never driving again, and such a pause of HOMING, REMEASURE or MEASURING cannot be
skipped; a collet that did not open gives the feed up, and its target with it, which is the model's choice (assumption log
19); a bar not seen in LOADING, and a wrong bar, is dropped from the rack; an ejection is given up with its record; a failed
measurement sends the bar to BAR_END. Everything else acts as RETRY. -/
def Obligations.SkipActsByItsTable : Prop :=
  (∀ k st now, st ≠ now → skipEffect k st now = .asRetry) ∧
  (∀ k st, skipEffect k st st =
    if (k = .pusherStall ∨ k = .colletClosedInMotion) ∧ (st = .homing ∨ st = .remeasure ∨ st = .measuring) then .refused
    else if (k = .pusherStall ∨ k = .colletClosedInMotion) ∧ st = .feeding then .feedOver
    else if (k = .pusherStall ∨ k = .colletClosedInMotion) ∧ st = .positioning then .positionOver
    else if (k = .pusherStall ∨ k = .colletClosedInMotion) ∧ st = .barEnd then .retractOver
    else if k = .colletNotOpen ∧ st = .feeding then .feedGivenUp
    else if k = .barNotSeen ∧ st = .loading ∨ k = .wrongBar ∧ st = .noBar then .headDropped
    else if k = .barNotSeen ∧ st = .ejecting then .ejectGivenUp
    else if k = .measureFail ∧ (st = .measuring ∨ st = .remeasure) then .barOut
    else .asRetry) ∧
  ∀ s : State,
    let rest : FeedState := if s.lotReached then .lotDone else .ready
    s.skip .asRetry = { s with fsq := { s.fsq with retry := true } } ∧
    (∀ e, e = .feedOver ∨ e = .positionOver ∨ e = .retractOver →
      s.skip e = { s with fsq := { s.fsq with
        move := s.fsq.move.map fun m => { m with phase := .coasting, fast := false, halted := true } } }) ∧
    ((s.skip .feedGivenUp).fsq.st = rest ∧ (s.skip .feedGivenUp).fsq.feedDone = s.fsq.feedDone ∧
      (s.skip .feedGivenUp).fsq.target = none) ∧
    ((s.skip .headDropped).fsq.st = .noBar ∧ (s.skip .headDropped).bac = { s.bac with rack := s.bac.rack.tail }) ∧
    ((s.skip .ejectGivenUp).fsq.st = (if s.lotReached then .lotDone else .noBar) ∧
      (s.skip .ejectGivenUp).bac = { s.bac with current := none } ∧ (s.skip .ejectGivenUp).fsq.pCut = none ∧
      Raised (s.skip .ejectGivenUp) .barEnd) ∧
    ((s.skip .barOut).fsq.st = .barEnd ∧ (s.skip .barOut).fsq.move = none)

/-- R48, R172, R190: FAULT CLEAR is refused with STATE outside SAFE and with the cover open; accepted, it makes the level
NORMAL, clears both pauses and the active marks, ends an open gate time, and sends the feed engine to HOMING with watch,
target and FEED_DONE given up. A pulse consumed and not yet accounted goes back to its latch, over a second one that stands
there, which is the model's choice (assumption log 10). The equality of `fsq` also says that W and mode of the disarmed watch
stay, which is the model's choice (assumption log 20). -/
def Obligations.FaultClearLeavesSafe : Prop :=
  ∀ s : State, let i := Instr.faultClear []
    served i s = true → let f := framed i s
    (s.inSafe = false ∨ s.inp .guard = false → exec i s = .next (answered f .state [])) ∧
    (s.inSafe = true → s.inp .guard = true → ∃ t u, exec i s = .next t ∧
      Follows true f (answered (State.engine u) .done []) t ∧
      u.flt = { s.flt with
        level := .normal, feedPaused := none, unloadPaused := none
        alert := s.flt.alert.map fun c => { c with active := false }
        safe := s.flt.safe.map fun c => { c with active := false } } ∧
      u.fsq = { s.fsq with
        st := .homing, begun := false, retry := false, move := none, limit := none, trip := none, pauseWatch := false
        target := none, escape := none, eject := none, watchArmed := false, watchHit := false, feedDone := false
        cutWait := none } ∧
      u.sig = { s.sig with zeroArmed := false, cutLatch := s.fsq.cutWait.or s.sig.cutLatch } ∧
      u.uns = { s.uns with gate := none } ∧
      u.bac = s.bac ∧ u.sfc = s.sfc ∧ u.alc = s.alc ∧ u.psr = s.psr ∧ u.blt = s.blt ∧ u.mpt = f.mpt ∧ u.stu = s.stu ∧
      u.samples = s.samples ∧ u.bits = s.bits ∧ u.pending = s.pending)

/-- R45: WATCH SET clamps the position to 0 and P_max, arms the watch, clears its hit and its pause, and answers the position;
WATCH OFF disarms it. A bar-end wait that only the watch held begins again. That beginning is the model's choice (assumption
log 20). -/
def Obligations.WatchIsSetAndTakenOff : Prop :=
  ∀ (s : State) (p0 p1 p2 p3 mode : Byte),
    let i := Instr.watchSet [p0, p1, p2, p3, mode]
    let off := Instr.watchOff []
    let w := max 0 (min (beSigned [p0, p1, p2, p3]) s.cfg.pMax)
    let again := s.fsq.pauseWatch && s.fsq.st == .barEnd && s.fsq.move.isNone && s.flt.feedPaused.isNone && !s.inSafe
    s.running = true → s.mpt.takes = true →
    (mode ≠ 1 → mode ≠ 2 → exec i s = .next (answered (framed i s) .range [])) ∧
    (mode = 1 ∨ mode = 2 → ∃ t, exec i s = .next t ∧
      Follows false (framed i s) (answered (State.engine { framed i s with fsq := { s.fsq with
        pauseWatch := false, begun := s.fsq.begun && !again
        watchPos := some w, watchArmed := true, watchHit := false, watchFwd := decide (mode = 2) } }) .done (beInt 4 w)) t) ∧
    ∃ t, exec off s = .next t ∧
      Follows false (framed off s) (answered (State.engine { framed off s with fsq := { s.fsq with
        pauseWatch := false, begun := s.fsq.begun && !again, watchArmed := false, watchHit := false } }) .done []) t

/-- R15, R16: the emptied commands set the remnant count and the reject bin count to 0. -/
def Obligations.EmptiedCountsAreZero : Prop :=
  ∀ s : State, s.running = true → s.mpt.takes = true →
    let tray := Instr.remnantTrayEmptied []
    let bin := Instr.rejectBinEmptied []
    exec tray s = .next (answered { framed tray s with bac := { s.bac with tray := 0 } } .done []) ∧
    ∃ t, exec bin s = .next t ∧ Follows false (framed bin s)
      (answered (State.engine { framed bin s with bac := { s.bac with bin := 0 } }) .done []) t

/-- R22, R50, R66, R92, R114, R133, R158, R175, R194, R213, R221: RESTART is refused with STATE in SAFE. Accepted, its answer
DONE stands ready; the faults and event marks are cleared, the line listens afresh with an empty queue and nothing driven, the
peers and the shuttle view are forgotten, a round QUEUED or SENT ends, the belt resynchronises, the claim table is emptied: a
record bound to an awaited DROP leaves, and one whose confirmation runs leaves where the tray shows no part; the feed engine
goes to HOMING. Bars, parts, job, counts, inputs and latches stay. The order of its parts is the model's choice (assumption
log 16), as are the pulse given back to its latch, over a second one that stands there (assumption log 10), and W and mode of
the disarmed watch, which stay (assumption log 20). -/
def Obligations.RestartKeepsTheRecords : Prop :=
  ∀ s : State, let i := Instr.restart []
    served i s = true → let f := framed i s
    (s.inSafe = true → exec i s = .next (answered f .state [])) ∧
    (s.inSafe = false → ∃ t u, exec i s = .next t ∧
      Follows true { f with mpt := { f.mpt with buffer := .ready { status := .done, data := [] } } } (State.engine u) t ∧
      u.bac = s.bac ∧ u.stu = s.stu ∧ u.mpt.job = s.mpt.job ∧ u.mpt.lotCount = s.mpt.lotCount ∧ u.mpt.lotNo = s.mpt.lotNo ∧
      u.mpt.flags = s.mpt.flags ∧ u.mpt.threshold = s.mpt.threshold ∧
      u.mpt.buffer = .ready { status := .done, data := [] } ∧
      (∀ k : Fin 16, u.mpt.sources[k] = { s.mpt.sources[k] with pending := false, inService := false }) ∧
      u.flt = { s.flt with
        level := .normal, feedPaused := none, unloadPaused := none
        alert := s.flt.alert.map fun c => { c with active := false }
        safe := s.flt.safe.map fun c => { c with active := false } } ∧
      u.alc = { s.alc with
        st := .listening, timer := some 2000, waitGap := true, queue := [], consecutive := 0, ownObj := 0, mute := false
        doubt := false, unit := ⟨[], 0, .free false⟩ } ∧
      (let ends := s.psr.dispatch = .queued ∨ s.psr.dispatch = .sent
       u.psr = { s.psr with
        peers := [], overflow := false, shuttle := .absent, shuttleAge := 0
        dispatch := if ends then s.restState else s.psr.dispatch
        dispTimer := if ends then none else s.psr.dispTimer }) ∧
      u.blt = { s.blt with
        sync := .unsynced, map := List.replicate s.cfg.pockets .unknown, misses := 0, mismatch := false } ∧
      u.uns = { s.uns with
        closing := [], active := [], gate := none, confirm := none, yield := 0, hold := u.uns.hold
        dropped := s.uns.dropped + BitVec.ofNat 32 (s.uns.hold.length - u.uns.hold.length) } ∧
      ((s.uns.hold.map (·.seq)).Nodup → ∀ r : PartRec, r ∈ u.uns.hold ↔ r ∈ s.uns.hold ∧
        ¬∃ c ∈ s.uns.closing, c.bound = some r.seq ∧
          (c.stage = .awaitDrop ∨ (c.stage = .dropping ∨ c.stage = .awaitConfirm) ∧ s.inp .trayBottom = false)) ∧
      u.sig = { s.sig with zeroArmed := false, cutLatch := s.fsq.cutWait.or s.sig.cutLatch } ∧
      u.samples = s.samples ∧ u.bits = s.bits ∧ u.pending = s.pending ∧
      u.sfc = { s.sfc with unused := true } ∧
      u.fsq = { s.fsq with
        st := .homing, begun := false, retry := false, move := none, limit := none, trip := none, pauseWatch := false
        target := none, escape := none, eject := none, watchArmed := false, watchHit := false, feedDone := false
        cutWait := none, request := s.inp .feedReq })

/-- R207, R218: CONFIG LOAD is refused with STATE while the station runs and with RANGE where its record has another sum than
0 or a field that would be clamped; a valid record in UNCONFIGURED starts the writing, the answer still to come. The eight
pages are acknowledged one by one with 20 ms each; the read-back of the same record ends in the power-on with the answer DONE,
another record or a page out of time in the answer UNCONFIGURED and the reason MEMORY. The memory stands outside the part, and
the read-back brings its bytes (assumption log 17). From when the 20 ms run, that CONFIG_PAGE_TIMEOUT also carries a page one
of whose bytes is not acknowledged, and that a read-back which the memory does not acknowledge ends as one that differs, is
the model's choice (assumption log 29). -/
def Obligations.ConfigLoadIsWrittenPageByPage : Prop :=
  (∀ (s : State) (r : List Byte), let i := Instr.configLoad r
    r.length = 128 → s.mpt.takes = true → s.inp .setupKey = true → let f := framed i s
    (s.running = true → exec i s = .next (answered f .state [])) ∧
    (s.stu.phase = .unconfigured → (wordSum r ≠ 0 ∨ (readRecord r).2 = true) →
      exec i s = .next (answered f .range [])) ∧
    (s.stu.phase = .unconfigured → wordSum r = 0 → (readRecord r).2 = false → exec i s = .next { f with
      stu := { s.stu with load := some { record := r, pages := 0, timer := some 20 } }
      mpt := { f.mpt with buffer := .pending none } })) ∧
  ∀ (s : State) (l : Loading), s.stu.load = some l →
    (∀ m, l.timer = some m →
      exec .configPageWritten s = .next { s with stu := { s.stu with
        load := some { l with pages := l.pages + 1, timer := if l.pages + 1 < 8 then some 20 else none } } } ∧
      exec .configPageTimeout s = .next { s with
        stu := { s.stu with load := none, reason := some .memory }
        mpt := { s.mpt with buffer := .pending (some { status := .unconfigured, data := [] }) } }) ∧
    (l.timer = none → ∀ r : List Byte,
      exec (.configReadbackDone r) s = .next (
        if r = l.record then
          { State.reset with
            sig := { State.reset.sig with pins := s.sig.pins }, samples := s.samples, bits := s.bits, pending := s.pending
            mpt := { State.reset.mpt with buffer := .ready { status := .done, data := [] } } }
        else
          { s with
            stu := { s.stu with load := none, reason := some .memory }
            mpt := { s.mpt with buffer := .pending (some { status := .unconfigured, data := [] }) } })) ∧
    (l.timer = none → s.stu.phase ≠ .reading → exec .configReadFail s = .next { s with
      stu := { s.stu with load := none, reason := some .memory }
      mpt := { s.mpt with buffer := .pending (some { status := .unconfigured, data := [] }) } })

/-! ## The feed sequencer -/

/-- R37 to R40: FEED_REQ sets and clears the pending request; its drop ends a feed, in CUTTING with FEED_DONE and in READY (or
LOT_DONE, with the lot reached) without; a request is served in READY with a job, a cut position, room for the part and no
catch open, to the target P_cut + C, its move cut to P_max and waiting for COLLET_OPEN for at most 2 s, or driving at once; and
left alone otherwise. That a claim selection comes before a pulse that stands latched is accounted is the model's choice
(assumption log 18), as is the feed target cleared with an aborted feed and recorded uncut (assumption log 19). -/
def Obligations.FeedRequestIsHeldAndServed : Prop :=
  ∀ s : State, s.running = true →
    (∃ t, exec .feedReqRaised s = .next t ∧
      Follows false s (State.engine { s.setLevel .feedReq true with fsq := { s.fsq with request := true } }) t) ∧
    (let d : State := { s.setLevel .feedReq false with fsq := { s.fsq with request := false } }
      ∃ t, exec .feedReqDropped s = .next t ∧
      (s.fsq.st ≠ .feeding → Follows false s d.engine t) ∧
      (s.fsq.st = .feeding → s.fsq.feedDone = true → Follows false s (State.engine (State.select 4
        (State.enter { d with fsq := { d.fsq with feedDone := false } } .cutting))) t) ∧
      (s.fsq.st = .feeding → s.fsq.feedDone = false → Follows false s (State.engine
        (State.enter { d with fsq := { d.fsq with target := none } } (if s.lotReached then .lotDone else .ready))) t)) ∧
    (∀ j p, s.mpt.job = some j → s.fsq.pCut = some p → s.fsq.request = true → s.fsq.st = .ready → s.feedHeld = false →
      s.uns.hold.length ≤ 5 → s.bac.bin < s.cfg.binCap → s.uns.catching = none → s.fsq.feedDone = false →
      let g := p + (j.lp + j.wc + j.af)
      let m : Move := ⟨.main, .fwd, some (min g s.cfg.pMax), .waiting, false, false⟩
      ∃ t, exec .feedServe s = .next t ∧ Follows false s (State.engine (State.enter { s with fsq := { s.fsq with
        request := false, target := some g } } .feeding)) t ∧
      (s.sig.cutLatch = none → t.fsq.request = false ∧ t.fsq.target = some g ∧
        (s.inp .colletOpen = false → t.fsq.move = some m ∧ t.fsq.limit = some 2000) ∧
        ∀ q, s.inp .colletOpen = true → s.posn = some q → q < min g s.cfg.pMax - s.cfg.runOn → t.fsq.limit = none ∧
          t.fsq.move = some { m with
            phase := .driving, fast := decide ((s.cfg.slowZone : Int) < (min g s.cfg.pMax - q).natAbs) })) ∧
    (s.fsq.request = false ∨ s.fsq.st ≠ .ready ∨ s.feedHeld = true ∨ 5 < s.uns.hold.length ∨ s.cfg.binCap ≤ s.bac.bin ∨
      s.uns.catching.isSome = true ∨ s.fsq.feedDone = true ∨ s.mpt.job = none ∨ s.fsq.pCut = none →
      exec .feedServe s = .next s)

/-- R11, R13, R40, R41, R52 to R54, R134: a CUT_DONE pulse is accounted in CUTTING with the encoder still: at its edge, at the
FEED_REQ drop where it was latched before it, or when the encoder comes to rest. The OUTCOME levels are those captured at the
edge. P_cut is the present P, the target goes, the lot count rises, the cut clock starts again, the interval is offered to the
average, the part is routed and its catch window opens, and the engine goes on to BAR_END, LOT_DONE or READY. Here no cut-off
fault arises. That the cut clock is read and started again at the accounting, and not at the pulse, is the model's choice
(assumption log 18). That the row of the settled encoder acts whenever it is sent is the model's choice (assumption log 25). -/
def Obligations.CutIsAccounted : Prop :=
  ∀ (s : State) (i : Instr) (cap : Bool × Bool) (j : Job), s.running = true → s.mpt.job = some j → s.fsq.pKnown = true →
    s.bac.current.isSome = true →
    (i = .cutDoneEdge ∧ cap = (s.inp .outcomeA, s.inp .outcomeB) ∧ s.fsq.st = .cutting ∧ s.fsq.cutWait = none ∧ s.sig.cutLatch = none ∧
        20 ≤ s.fsq.still ∨
      i = .feedReqDropped ∧ s.fsq.st = .feeding ∧ s.fsq.feedDone = true ∧ s.fsq.cutWait = none ∧
        s.sig.cutLatch = some cap ∧ 20 ≤ s.fsq.still ∨
      i = .moveSettled ∧ s.fsq.st = .cutting ∧ s.fsq.cutWait = some cap ∧ s.sig.cutLatch = none) →
    let p : Int := (s.fsq.e.toInt * 100) / (s.cfg.edges : Int)
    let lr : Int := s.cfg.xFace - p
    let parts : Nat := ((lr - j.lg) / ((j.lp + j.wc + j.af : Nat) : Int)).toNat
    let count := min 65536 (s.mpt.lotCount + 1)
    (∀ c, s.fsq.pCut = some c → ((p - c) - ((j.lp + j.wc + j.af : Nat) : Int)).natAbs ≤ s.cfg.tol) → (j.lg : Int) ≤ lr →
    ∃ t, exec i s = .next t ∧ t.fsq.pCut = some p ∧ t.fsq.target = none ∧ t.fsq.cutWait = none ∧ t.sig.cutLatch = none ∧
      t.fsq.feedDone = (if i = .feedReqDropped then false else s.fsq.feedDone) ∧
      t.mpt.lotCount = count ∧ t.mpt.job = s.mpt.job ∧ t.mpt.lotNo = s.mpt.lotNo ∧
      t.fsq.st = (if parts = 0 then .barEnd else if (if j.q = 0 then 65536 else j.q) ≤ count then .lotDone else .ready) ∧
      t.sfc.cutClock = some 0 ∧ t.sfc.cutSub = 0 ∧ t.sfc.unused = false ∧
      t.sfc.ta8 = (match s.sfc.cutClock with
        | some interval =>
          if s.sfc.unused = true ∨ s.fsq.firstCut = true ∨ 8 * j.tn < interval then s.sfc.ta8
          else s.sfc.ta8 + max (j.tn / 4) (min (4 * j.tn) interval) - s.sfc.ta8 / 8
        | none => s.sfc.ta8) ∧
      (∃ o : Routed, o = (if s.mpt.flags.getLsbD 3 then .reject else if s.mpt.flags.getLsbD 4 then .sample
          else if cap.2 then .reject else if cap.1 then .sample else .good) ∧
        t.uns.catching = some (⟨o, s.mpt.lotNo, s.bac.current.map (·.origin), s.uns.seconds⟩, s.cfg.catchMs) ∧
        t.uns.divert = (o == .reject)) ∧
      t.mpt.flags = (if s.mpt.flags.getLsbD 3 then s.mpt.flags else s.mpt.flags &&& 15) ∧
      t.bac = s.bac ∧ t.flt = s.flt ∧ t.blt = s.blt ∧ t.stu = s.stu ∧ t.uns.hold = s.uns.hold ∧
      t.uns.closing = s.uns.closing ∧ t.uns.caught = s.uns.caught ∧ t.psr.peers = s.psr.peers

/-- R11 to R13, R40, R41, R90, R112, R134, R155, R161, R162, R166, R180: outside CUTTING a CUT_DONE pulse is consumed with the
notice UNEXPECTED_CUT and accounts nothing; in FEEDING with FEED_DONE it is left standing, a second one merged with it and the
first capture kept. In CUTTING a deviation above the tolerance is accounted and raises FEED_DEVIATION, and a remaining length
below the grip reserve is accounted, raises GRIP_SHORT and leads to BAR_END: from NORMAL, ALERT and SAFE, the fault record
becoming what the two reports make of it in this order, and the part is routed as at every cut (R134). From NORMAL and ALERT,
GRIP_SHORT enters SAFE, and the station is then what R90, R112, R155 and R166 make of it: the transmit queue is emptied but
for the RELEASEs and then the PRESENCE asked for, an own frame in flight is cut off, no claim stays active, a round in QUEUED
or SENT ends, the need is inactive and the feed engine stands still in BAR_END; and under the laws of 4 entries and of one
entry a pocket the claim table, the records and the queue are those that `safeClaims` and `safeReleases` say. A pulse taken
while the one before it waits for the encoder to be still stands latched, which is the model's choice (assumption log 10); so
is the order of the RELEASEs, and that an entry awaiting a CLAIM's attempt ends is its reading (assumption log 12); how what
is left of the frame cut off is read is its choice too (assumption log 30). -/
def Obligations.CutFaultsAndUntimelyCuts : Prop :=
  ∀ s : State, s.running = true →
    let l := s.setLevel .cutDone true
    (s.sig.cutLatch = none → engineRests s = true → s.fsq.st ≠ .cutting → (s.fsq.st = .feeding → s.fsq.feedDone = false) →
      ∃ t, exec .cutDoneEdge s = .next t ∧ Follows false s (noticed l .unexpectedCut none .partMissing) t) ∧
    (engineRests s = true → s.fsq.st = .feeding ∧ s.fsq.feedDone = true ∨ s.fsq.st = .cutting ∧ s.fsq.cutWait.isSome = true →
      ∃ t, exec .cutDoneEdge s = .next t ∧ Follows false s { l with sig := { l.sig with
        cutLatch := some (s.sig.cutLatch.getD (s.inp .outcomeA, s.inp .outcomeB)) } } t) ∧
    ∀ j c, s.sig.cutLatch = none → s.fsq.st = .cutting → s.fsq.cutWait = none → 20 ≤ s.fsq.still → s.fsq.pKnown = true →
      s.mpt.job = some j → s.bac.current.isSome = true → s.fsq.pCut = some c →
      let p : Int := (s.fsq.e.toInt * 100) / (s.cfg.edges : Int)
      let off := ((p - c) - ((j.lp + j.wc + j.af : Nat) : Int)).natAbs
      let lr : Int := s.cfg.xFace - p
      let parts : Nat := if lr < j.lg then 0 else ((lr - j.lg) / ((j.lp + j.wc + j.af : Nat) : Int)).toNat
      let count := min 65536 (s.mpt.lotCount + 1)
      let further (f : Flt) (code : Nat) : Flt :=
        { f with further := min 255 (f.further + 1), furtherSet := setBit f.furtherSet (code - 1) true }
      let deviation (f : Flt) : Flt :=
        match f.level with
        | .normal => { f with
            level := .alert, further := 0, furtherSet := 0, feedPaused := some (.feedDeviation, .cutting)
            alert := some ⟨.feedDeviation, .feed, .feed .cutting, some 0, none, true⟩ }
        | .alert => { further f 4 with feedPaused := some (.feedDeviation, .cutting) }
        | .safe => further f 4
      let short (f : Flt) : Flt :=
        let g : Capture := ⟨.gripShort, .feed, .feed .cutting, some 0, some f.level, true⟩
        match f.level with
        | .normal => { f with level := .safe, further := 0, furtherSet := 0, safe := some g }
        | .alert => { f with level := .safe, safe := some g }
        | .safe => further f 9
      ∃ t, exec .cutDoneEdge s = .next t ∧
        (s.cfg.tol < off ∨ lr < j.lg →
          t.fsq.pCut = some p ∧ t.fsq.target = none ∧ t.fsq.cutWait = none ∧ t.sig.cutLatch = none ∧ t.mpt.lotCount = count ∧
          t.fsq.st = (if parts = 0 then .barEnd else if (if j.q = 0 then 65536 else j.q) ≤ count then .lotDone else .ready) ∧
          t.flt = (if lr < j.lg then short else id) ((if s.cfg.tol < off then deviation else id) s.flt) ∧
          (s.cfg.tol < off → s.flt.level = .normal → Raised t .alertEntered) ∧
          (lr < j.lg → s.flt.level ≠ .safe → Raised t .safeEntered) ∧
          (∃ o : Routed, o = (if s.mpt.flags.getLsbD 3 then .reject else if s.mpt.flags.getLsbD 4 then .sample
              else if s.inp .outcomeB then .reject else if s.inp .outcomeA then .sample else .good) ∧
            t.uns.catching = some (⟨o, s.mpt.lotNo, s.bac.current.map (·.origin), s.uns.seconds⟩, s.cfg.catchMs) ∧
            t.uns.divert = (o == .reject)) ∧
          t.bac = s.bac ∧ t.blt = s.blt ∧ t.stu = s.stu) ∧
        (lr < j.lg → s.flt.level ≠ .safe →
          let takes := s.alc.st == .listening || s.alc.st == .active || s.alc.st == .withdrawn
          let ends := s.psr.dispatch = .queued ∨ s.psr.dispatch = .sent
          t.alc = { s.alc with queue := t.alc.queue, unit := clearedUnit s.alc } ∧
          t.psr = { s.psr with
            summary := .safe
            dispatch := (match s.psr.dispatch with
              | .enRoute => .enRoute
              | .waiting => if s.sfc.need.active then .none else .waiting
              | .none | .queued | .sent => .none)
            dispTimer := if ends then none else s.psr.dispTimer } ∧
          t.uns = { s.uns with
            active := [], closing := t.uns.closing, hold := t.uns.hold, dropped := t.uns.dropped
            catching := t.uns.catching, divert := t.uns.divert } ∧
          t.fsq.begun = false ∧ t.fsq.move = none ∧ t.fsq.limit = none ∧ t.fsq.escape = none ∧ t.fsq.eject = none ∧
          t.sig.zeroArmed = false ∧ t.sfc.need.active = false ∧
          t.uns.hold.length ≤ s.uns.hold.length ∧ (∀ e ∈ t.alc.queue, e.kind = .presence ∨ ∃ q, e.kind = .release q) ∧
          (takes = true → claimLaw s = true → ∃ e ∈ t.alc.queue, e.kind = .presence) ∧
          (claimLaw s = true → pocketLaw s →
            t.uns = { safeClaims takes s.uns with catching := t.uns.catching, divert := t.uns.divert } ∧
            t.alc.queue = if takes then ((safeReleases s.uns).map fun q =>
                (⟨.release q, s.own, [2, .ofNat 8 q], 0, false, false, false⟩ : TxEntry)) ++
              [⟨.presence, 32768 + s.own, [], 0, false, false, false⟩] else []))

/-- R25, R26, R28, R34, R38, R43, R161, R165: the step faults of the feed engine. From NORMAL the level becomes ALERT with the
alert capture filled and the event raised, at ALERT it is a further fault, and either way the engine is paused in its state:
its move is interrupted and keeps its target, its limit and pulses end, the home zero is disarmed; in SAFE it is a further fault
alone. Beside that and the level it carries the command changes nothing; where its condition does not hold, that level alone. That
a move which coasts is not interrupted and is kept is the model's reading (assumption log 19), and that a limit's row acts
whenever its limit runs is its choice (assumption log 25). -/
def Obligations.StepFaultsPauseTheFeedEngine : Prop :=
  ∀ (s : State) (i : Instr) (k : FaultKind) (ctx : Option Nat) (due : Bool), s.running = true →
    (i = .pusherStall ∧ k = .pusherStall ∧ ctx = none ∧ due = s.stallable ∨
      i = .colletOpenDropped ∧ k = .colletClosedInMotion ∧ ctx = none ∧ due = (s.fsq.drives .fwd || s.fsq.drives .rev) ∨
      i = .loadingLimit ∧ k = .barNotSeen ∧ ctx = some 1 ∧ due = (s.fsq.st == .loading && s.fsq.limit.isSome) ∨
      i = .remnantLimit ∧ k = .barNotSeen ∧ ctx = some 0 ∧ due = (s.fsq.st == .ejecting && s.fsq.limit.isSome) ∨
      i = .colletLimit ∧ k = .colletNotOpen ∧ ctx = none ∧
        due = (s.fsq.st == .feeding && s.waiting && s.fsq.limit.isSome)) →
    let v := if i = .colletOpenDropped then s.setLevel .colletOpen false else s
    let counted : Flt := { s.flt with
      further := min 255 (s.flt.further + 1), furtherSet := setBit s.flt.furtherSet (k.code - 1) true }
    let stopped : State := { v with
      sig := { v.sig with zeroArmed := false }
      fsq := { s.fsq with
        limit := none, escape := none, eject := none
        move := s.fsq.move.map fun m => if m.phase = .coasting then m else { m with phase := .interrupted, fast := false } } }
    ∃ t u, exec i s = .next t ∧ Follows false s (State.engine u) t ∧ (due = false → u = v) ∧
      (due = true → u = match s.flt.level with
        | .normal => { stopped with
            mpt := raising s.mpt .alertEntered
            flt := { s.flt with
              level := .alert, further := 0, furtherSet := 0, feedPaused := some (k, s.fsq.st)
              alert := some ⟨k, .feed, .feed s.fsq.st, ctx, none, true⟩ } }
        | .alert => { stopped with flt := { counted with feedPaused := some (k, s.fsq.st) } }
        | .safe => { v with flt := counted })

/-- R27, R30, R90, R102, R112, R152, R155, R162, R166, R168: the severe faults. From NORMAL and ALERT the station enters SAFE
with the safe capture filled and the event raised: the transmit queue is emptied but for the RELEASEs and then the PRESENCE
asked for, an own frame in flight is cut off, no claim stays active, a round in QUEUED or SENT ends, the feed engine stops; in
SAFE it is a further fault. Of the claim table, under the laws of 4 entries and of one entry a pocket: a QUEUED claim ends,
one HELD or ARMED becomes CLOSING awaiting the RELEASE that stands in the transmit queue, as an entry does that awaited one
before the clear, a DROPPING entry goes on as CLOSING with its confirmation and its gate time, and the record of an awaited
DROP leaves as dropped; where the line takes no request the entries that await a RELEASE end and nothing is queued. The order
of the RELEASEs is the model's choice, and that an entry awaiting a CLAIM's attempt ends is its reading (assumption log 12).
Where its condition does not hold, the command changes the level it carries and nothing else. How what is left of the frame
cut off is read, as an abandoned one or, within its arbitration, as a rival's that may go on, is the model's choice
(assumption log 30); that a move which coasts is not interrupted and is kept is its reading beside R48 (assumption log 19);
that a waiting move of HOMING counts as a move is its choice (assumption log 21), as is a limit's row acting whenever its
limit runs (assumption log 25). -/
def Obligations.SevereFaultsEnterSafe : Prop :=
  ∀ (s : State) (i : Instr) (k : FaultKind) (due : Bool) (v : State), s.running = true →
    (i = .homingLimit ∧ k = .homeFail ∧ due = (s.fsq.st == .homing && s.fsq.limit.isSome) ∧
        v = (if due then { s with fsq := { s.fsq with limit := none } } else s) ∨
      (∃ l, i = .fwdLimitActive l ∧ k = .overtravel ∧
        due = (l && !(s.fsq.st == .homing && (s.fsq.move.isNone || s.fsq.drives .rev))) ∧ v = s.setLevel .fwdLimit l) ∨
      ∃ l, i = .guardOpen l ∧ k = .guardOpen ∧ due = !l ∧ v = s.setLevel .guard l) →
    ∃ t u, exec i s = .next t ∧ Follows false s (State.engine u) t ∧ (due = false → u = v) ∧
      (due = true → s.inSafe = true → u = { v with flt := { s.flt with
        further := min 255 (s.flt.further + 1), furtherSet := setBit s.flt.furtherSet (k.code - 1) true } }) ∧
      (due = true → s.inSafe = false →
        let ends := s.psr.dispatch = .queued ∨ s.psr.dispatch = .sent
        u = { v with
          mpt := raising s.mpt .safeEntered
          flt := { s.flt with
            level := .safe
            safe := some ⟨k, if k = .guardOpen then .station else .feed, .feed s.fsq.st, none, some s.flt.level, true⟩
            further := if s.flt.level = .normal then 0 else s.flt.further
            furtherSet := if s.flt.level = .normal then 0 else s.flt.furtherSet }
          alc := { s.alc with
            queue := u.alc.queue
            unit := clearedUnit s.alc }
          psr := { s.psr with
            summary := .safe
            dispatch := if ends then s.restState else s.psr.dispatch
            dispTimer := if ends then none else s.psr.dispTimer }
          uns := { s.uns with
            active := [], closing := u.uns.closing, hold := u.uns.hold, dropped := u.uns.dropped }
          sig := { v.sig with zeroArmed := false }
          fsq := { s.fsq with
            limit := none, escape := none, eject := none
            move := s.fsq.move.map fun m =>
              if m.phase = .coasting then m else { m with phase := .interrupted, fast := false } } } ∧
        u.uns.hold.length ≤ s.uns.hold.length ∧ (∀ e ∈ u.alc.queue, e.kind = .presence ∨ ∃ p, e.kind = .release p) ∧
        ((s.alc.st = .listening ∨ s.alc.st = .active ∨ s.alc.st = .withdrawn) → claimLaw s = true →
          ∃ e ∈ u.alc.queue, e.kind = .presence) ∧
        (claimLaw s = true → pocketLaw s →
          let takes := s.alc.st == .listening || s.alc.st == .active || s.alc.st == .withdrawn
          u.uns = safeClaims takes s.uns ∧
          u.alc.queue = if takes then ((safeReleases s.uns).map fun p =>
              (⟨.release p, s.own, [2, .ofNat 8 p], 0, false, false, false⟩ : TxEntry)) ++
            [⟨.presence, 32768 + s.own, [], 0, false, false, false⟩] else []))

/-- R23, R185: a change of the accepted encoder pair along the forward order 00, 10, 11, 01 counts up, against it down, a
change of both levels at once is a skip, and the first accepted pair is the starting phase. Before the join the pair is taken,
and a skip counted, but the count e stays, which is the model's reading (assumption log 7). With no phase or no P the edge
changes beside that the stillness and stall times, and takes PUSH_FAST off a move that drives, and nothing else. -/
def Obligations.EncoderCountsQuadrature : Prop :=
  ∀ (s : State) (a b : Bool), ∃ t, exec (.encoderEdge a b) s = .next t ∧ t.sig.phase = some (a, b) ∧
    (s.running = false → t = { (s.setLevel .encA a).setLevel .encB b with
      sig := { ((s.setLevel .encA a).setLevel .encB b).sig with phase := some (a, b), skips := t.sig.skips } }) ∧
    (s.sig.phase = none → t.fsq.e = s.fsq.e ∧ t.sig.skips = s.sig.skips) ∧
    (s.running = true → s.sig.phase = none ∨ s.fsq.pKnown = false →
      let v := (s.setLevel .encA a).setLevel .encB b
      let moved := ∃ c d, s.sig.phase = some (c, d) ∧ ¬(a = c ∧ b = d)
      ∃ u, Follows false s (State.engine u) t ∧ u = { v with
        sig := { v.sig with phase := some (a, b), skips := t.sig.skips }
        fsq := { s.fsq with
          e := t.fsq.e, still := if moved then 0 else s.fsq.still, quiet := if moved then 0 else s.fsq.quiet
          move := if s.sig.phase = none then s.fsq.move
            else s.fsq.move.map fun m => if m.phase = .driving then { m with fast := false } else m } }) ∧
    ∀ a0 b0, s.sig.phase = some (a0, b0) →
      (t.sig.skips = if a ≠ a0 ∧ b ≠ b0 then s.sig.skips + 1 else s.sig.skips) ∧
      (s.running = true →
        (a = a0 ∧ b = b0 → t.fsq.e = s.fsq.e) ∧
        (a ≠ a0 ∧ b ≠ b0 → t.fsq.e = s.fsq.e ∧ t.fsq.still = 0) ∧
        ((a ≠ a0 ∧ b = b0 ∧ a0 = b0 ∨ a = a0 ∧ b ≠ b0 ∧ a0 ≠ b0) → t.fsq.e = s.fsq.e + 1 ∧ t.fsq.still = 0) ∧
        ((a ≠ a0 ∧ b = b0 ∧ a0 ≠ b0 ∨ a = a0 ∧ b ≠ b0 ∧ a0 = b0) → t.fsq.e = s.fsq.e - 1 ∧ t.fsq.still = 0))

/-- R24, R46: at a new P an armed watch that is crossed is hit: it interrupts the move, pauses the engine and raises its
event; otherwise a driving move that has reached its stop point coasts, and one that has not keeps its direction and its
target and drives PUSH_FAST by the speed rule of its state (R29, R32, R35). Beside that the edge changes its levels, the phase,
the count, the skips and the stillness and stall times, and nothing else; of the event sources WATCH_HIT alone. What follows the
encoder edge is what the engine makes of that. That a move which coasts at the hit is kept, and COLLET_ILK with it, is the model's
choice (R24, R25, R28, R46; assumption log 19). That a P which crosses W and reaches the stop point is compared with the watch
first, so that the move is interrupted and does not coast, is the model's choice (assumption log 18), as is that W and the mode
stay after the hit (assumption log 20). That the measuring move of a bar without type never drives PUSH_FAST is its reading
(DEDUCED, assumption log 22). A home zero that is due at the same sample stays due, hit or not: that the hit stands beside it is
the model's choice (R186, assumption log 21). -/
def Obligations.NewPositionHitsWatchAndStopPoint : Prop :=
  ∀ (s : State) (a b a0 b0 : Bool) (p : Int), s.running = true → s.sig.phase = some (a0, b0) → s.posn = some p →
    ∃ t u, exec (.encoderEdge a b) s = .next t ∧ Follows false s (State.engine u) t ∧ u.fsq.e = t.fsq.e ∧
      t.sig.zeroDue = s.sig.zeroDue ∧
      let q : Int := t.fsq.e.toInt * 100 / (s.cfg.edges : Int)
      let hit := ∃ w, s.fsq.watchArmed = true ∧ s.fsq.watchPos = some w ∧
        (p < w ∧ w ≤ q ∨ s.fsq.watchFwd = false ∧ w ≤ p ∧ q < w)
      let moved := ¬(a = a0 ∧ b = b0)
      let l := (s.setLevel .encA a).setLevel .encB b
      let v : State := { l with
        sig := { l.sig with phase := some (a, b), skips := t.sig.skips }
        fsq := { s.fsq with
          e := t.fsq.e, still := if moved then 0 else s.fsq.still, quiet := if moved then 0 else s.fsq.quiet } }
      (hit → u = { v with
        sig := { v.sig with zeroArmed := false }
        mpt := raising s.mpt .watchHit
        fsq := { v.fsq with
          watchHit := true, watchArmed := false, pauseWatch := true, limit := none, escape := none, eject := none
          move := s.fsq.move.map fun m =>
            if m.phase = .coasting then m else { m with phase := .interrupted, fast := false } } }) ∧
      (¬hit → u = { v with fsq := { v.fsq with move := u.fsq.move } } ∧ (s.fsq.move = none → u.fsq.move = none) ∧
        ∀ m, s.fsq.move = some m → ∃ m', u.fsq.move = some m' ∧ m' = { m with phase := m'.phase, fast := m'.fast } ∧
          (m.phase ≠ .driving → m' = m) ∧
          (m.phase = .driving → m'.phase = .driving ∨ m'.phase = .coasting) ∧
          (m.phase = .driving → m'.phase = .driving → (m'.fast = true ↔ fastAt s m.leg m.target q)) ∧
          (m.phase = .driving → m.target = none → m'.phase = .driving) ∧
          (m.phase = .driving → ∀ g, m.target = some g →
            (m'.phase = .coasting ↔ (m.dir = .fwd ∧ g - s.cfg.runOn ≤ q ∨ m.dir = .rev ∧ q ≤ g + s.cfg.runOn)) ∧
            (m'.phase = .coasting → m'.fast = false)))

/-- R15, R24, R25, R28 to R30, R32, R33, R35, R36, R38, R42, R43, R46, R47, R186: what an engine that is not held does when
the step of its state begins: HOMING starts its move, REMEASURE and MEASURING drive to P_max, MEASURING not with a bar already
shown, POSITIONING to the ready position, FEEDING to the target, both cut to P_max, LOADING and EJECTING start pulse and
limit, BAR_END without room raises REMNANT_TRAY_FULL; an interrupted move is taken up again; then the engine goes on, and
where it is held it rests, but for a move that SKIP has ended: that any other move is kept while the engine is held, one that
has settled past its stop point too, and COLLET_ILK with it, is the model's choice (R24, R25, R28, R46; assumption log 19).
What a move begun or taken up again does is that of `Drives`. COLLET_OPEN lets every waiting move of an engine that is not
held drive, as `Drives` says, a feed without its collet limit; the home switch zeroes the count while the zero is armed, or
where it was at the sample of the edge, and takes the drive of the reverse part of HOMING off, one that the watch has
interrupted at that sample too (the model's choice, assumption log 21); leaving the switch turns the forward part round. That
HOME_SW is read where the drive is first applied, and that the reverse part starts at the edge, is the model's choice
(assumption log 21), as is POSITIONING as a forward move (assumption log 19) and the latch consumed at MEASURING's first edge
(assumption log 18). That a RETRY still waiting is spent when a step begins afresh is the model's choice (assumption log 20),
and that the measuring move of a bar without type drives slow throughout is its reading (DEDUCED, assumption log 22). -/
def Obligations.LinesOfTheMove : Prop :=
  (∀ (s : State) (m : Move), s.fsq.move = some m → Drives s s.drive m) ∧
  (∀ s : State, s.fsq.begun = false →
    let b : State := { s with fsq := { s.fsq with begun := true, retry := false } }
    let moving (v : State) (leg : Leg) (dir : Dir) (g : Option Int) : State :=
      State.drive { v with fsq := { v.fsq with move := some ⟨leg, dir, g, .waiting, false, false⟩ } }
    s.engineStep = some (match s.fsq.st with
      | .homing => moving b .start .rev none
      | .remeasure => moving b .main .fwd (some s.cfg.pMax)
      | .loading => { b with fsq := { b.fsq with escape := some 300, limit := some 3000 } }
      | .measuring =>
        if s.inp .spindleEntry then b.stepFeed .measureFail (some 0)
        else moving { b with sig := { s.sig with spindleLatch := none }, fsq := { b.fsq with trip := none } } .main .fwd
          (some s.cfg.pMax)
      | .positioning => (match s.mpt.job, s.bac.current.bind (·.length) with
        | some j, some lb => moving b .main .fwd (some (min ((s.cfg.xFace : Int) + j.lt - lb) s.cfg.pMax))
        | _, _ => b)
      | .feeding => (match s.fsq.target with
        | some g => moving b .main .fwd (some (min g s.cfg.pMax))
        | none => b)
      | .barEnd => if s.bac.tray < s.cfg.trayCap then b else b.raise .remnantTrayFull
      | .ejecting => { b with
          sig := { s.sig with remnantLatch := false }, fsq := { b.fsq with eject := some 300, limit := some 2000 } }
      | _ => b)) ∧
  (∀ (s : State) (m : Move), s.fsq.begun = true → s.fsq.retry = false → s.fsq.move = some m → m.phase = .interrupted →
    s.fsq.st ≠ .loading → s.fsq.st ≠ .ejecting → (s.fsq.st = .measuring → s.sig.spindleLatch = none) →
    s.engineStep = some s.drive) ∧
  (∀ (s : State) (n : Nat), s.sig.cutLatch = none → s.fsq.st ≠ .cutting →
    s.engine = s.pump 16 ∧
    (s.feedHeld = false → ∀ u, s.engineStep = some u → s.pump (n + 1) = u.pump n) ∧
    (s.feedHeld = false → s.engineStep = none → s.pump (n + 1) = s) ∧
    (s.feedHeld = true → (∀ m, s.fsq.move = some m → m.phase = .coasting → m.halted = false) → s.pump (n + 1) = s)) ∧
  ∀ s : State, s.running = true →
    (∃ t u, exec .colletOpenAsserted s = .next t ∧ Follows false s (State.engine u) t ∧
      ((∀ m, s.fsq.move = some m → m.phase ≠ .waiting) ∨ s.feedHeld = true → u = s.setLevel .colletOpen true) ∧
      (∀ m, s.fsq.move = some m → m.phase = .waiting → s.feedHeld = false → u = (s.setLevel .colletOpen true).drive) ∧
      ∀ m g p, s.fsq.move = some m → m.phase = .waiting → s.feedHeld = false → s.fsq.st = .feeding ∨ s.fsq.st = .positioning →
        m.dir = .fwd → m.target = some g → s.posn = some p →
        u = { s.setLevel .colletOpen true with fsq := { s.fsq with
          limit := if s.fsq.st = .feeding then none else s.fsq.limit
          quiet := if g - s.cfg.runOn ≤ p then s.fsq.quiet else 0
          move := some (if g - s.cfg.runOn ≤ p then { m with phase := .coasting, fast := false }
            else { m with phase := .driving, fast := decide ((s.cfg.slowZone : Int) < (g - p).natAbs) }) } }) ∧
    (∃ t u, exec (.homeSwEdge true) s = .next t ∧ Follows false s (State.engine u) t ∧
      (s.sig.zeroArmed = false → s.sig.zeroDue = false → u = s.setLevel .homeSw true) ∧
      (s.sig.zeroArmed = true ∨ s.sig.zeroDue = true →
        let v := s.setLevel .homeSw true
        let w : State := { v with
          sig := { v.sig with zeroArmed := false, zeroDue := false }, fsq := { s.fsq with e := 0, pKnown := true } }
        let approaches := s.fsq.st = .homing ∧ ∃ m, s.fsq.move = some m ∧ m.leg = .main ∧
          (m.phase = .driving ∨ m.phase = .interrupted)
        (approaches → u = { w with fsq := { w.fsq with
          limit := none
          move := s.fsq.move.map fun m => { m with phase := .coasting, fast := false, halted := true } } }) ∧
        (¬approaches → u = w))) ∧
    ∃ t u, exec (.homeSwEdge false) s = .next t ∧ Follows false s (State.engine u) t ∧
      ((∀ m, s.fsq.move = some m → m.phase ≠ .driving ∨ m.leg ≠ .offSwitch) ∨ s.fsq.st ≠ .homing →
        u = s.setLevel .homeSw false) ∧
      ∀ m, s.fsq.move = some m → m.phase = .driving → m.leg = .offSwitch → s.fsq.st = .homing →
        u = (s.setLevel .homeSw false).drive ∧
        (s.inp .colletOpen = true → u.sig.zeroArmed = true ∧ ∃ m', u.fsq.move = some m' ∧ m'.phase = .driving ∧ m'.dir = .rev ∧
          m'.leg = .main ∧ m'.target = none)

/-- R8, R29 to R32, R35, R36, R38, R41, R43, R53, R161, R165: with the encoder still, a coasting move of an engine that is not
held ends: a feed with FEED_DONE, POSITIONING at the ready position in READY or LOT_DONE, the retract of BAR_END in EJECTING
with the pulse and its limit, HOMING in NO_JOB, REMEASURE or NO_BAR; and REMEASURE, pushing until the encoder is still, takes
P as P_cut. An advance of REMEASURE that settles without contact, or of MEASURING without an edge of the spindle entry, raises
MEASURE_FAIL with context 0, the move over, P_cut as it was and nothing else changed (R161, R165). READY entered from
POSITIONING or REMEASURE sets the mark of the first cut, which leaves its interval unused (R41, R53); that the mark is not set
where LOT_DONE takes READY's place is the model's reading (DEDUCED, assumption log 23). A feed, a positioning or a retract
that SKIP has ended is over though a WATCH cause remains, and EJECTING then begins when that is gone: that is the model's
reading (DEDUCED, assumption log 19) beside R28, R46, R169 and R170. That the rows of stillness act whenever they are sent is
the model's choice (assumption log 25). -/
def Obligations.SettledMovesEnd : Prop :=
  (∀ (s : State) (m : Move), s.running = true → s.fsq.pauseWatch = true → s.flt.feedPaused = none → s.flt.level ≠ .safe →
    s.sig.cutLatch = none → s.fsq.move = some m → m.phase = .coasting → m.halted = true → ∃ t, exec .moveSettled s = .next t ∧
      t.fsq.pauseWatch = true ∧
      (s.fsq.st = .feeding → t.fsq.st = .feeding ∧ t.fsq.feedDone = true ∧ t.fsq.move = none) ∧
      (s.fsq.st = .positioning → t.fsq.pCut = s.readyPosition ∧ t.fsq.move = none ∧
        t.fsq.firstCut = (s.fsq.firstCut || !s.lotReached) ∧ t.fsq.st = if s.lotReached then .lotDone else .ready) ∧
      (s.fsq.st = .barEnd → t.fsq.st = .ejecting ∧ t.fsq.begun = false ∧ t.fsq.move = none)) ∧
  ∀ (s : State) (m : Move), s.running = true → s.feedHeld = false → s.fsq.begun = true → s.fsq.retry = false →
    s.sig.cutLatch = none → s.fsq.move = some m →
    (m.phase = .coasting → ∃ t, exec .moveSettled s = .next t ∧ t.blt = s.blt ∧ t.stu = s.stu ∧
      (s.fsq.st ≠ .loading → t.bac.rack = s.bac.rack) ∧
      (s.fsq.st = .feeding → t.fsq.st = .feeding ∧ t.fsq.feedDone = true ∧ t.fsq.move = none ∧ t.flt = s.flt ∧
        t.fsq.target = s.fsq.target) ∧
      (s.fsq.st = .positioning → t.fsq.pCut = s.readyPosition ∧ t.fsq.move = none ∧ t.flt = s.flt ∧
        t.fsq.firstCut = (s.fsq.firstCut || !s.lotReached) ∧ t.fsq.st = if s.lotReached then .lotDone else .ready) ∧
      (s.fsq.st = .barEnd → t.fsq.st = .ejecting ∧ t.fsq.eject = some 300 ∧ t.fsq.limit = some 2000 ∧ t.flt = s.flt) ∧
      (s.fsq.st = .homing → t.fsq.st = if s.mpt.job = none then .noJob else if s.inp .channel then .remeasure else .noBar) ∧
      (s.fsq.st = .homing → s.mpt.job.isSome = true → s.inp .channel = false → t.bac.current = none) ∧
      (m.leg ≠ .homeward → s.fsq.st = .remeasure ∧ m.halted = false ∨
          s.fsq.st = .measuring ∧ s.fsq.trip = none ∧ s.sig.spindleLatch = none →
        t.fsq.pCut = s.fsq.pCut ∧ Follows false s { s with
          sig := { s.sig with zeroArmed := false }
          fsq := { s.fsq with
            still := max s.fsq.still 20, move := none, limit := none, escape := none, eject := none }
          mpt := if s.flt.level = .normal then raising s.mpt .alertEntered else s.mpt
          flt := { s.flt with
            level := .alert
            alert := if s.flt.level = .normal then some ⟨.measureFail, .feed, .feed s.fsq.st, some 0, none, true⟩ else s.flt.alert
            further := if s.flt.level = .normal then 0 else min 255 (s.flt.further + 1)
            furtherSet := if s.flt.level = .normal then 0 else setBit s.flt.furtherSet 6 true
            feedPaused := some (.measureFail, s.fsq.st) } } t)) ∧
    (m.phase = .driving → m.leg = .main → s.fsq.st = .remeasure → ∃ t, exec .contactFound s = .next t ∧
      t.fsq.pCut = s.posn ∧ t.flt = s.flt ∧ t.bac = s.bac ∧ t.blt = s.blt ∧
      let parts := State.np { s with fsq := { s.fsq with pCut := s.posn } }
      t.fsq.firstCut = (s.fsq.firstCut || decide (parts ≠ 0) && !s.lotReached) ∧
      t.fsq.st = if parts = 0 then .barEnd else if s.lotReached then .lotDone else .ready)

/-- R5, R33, R34, R35: a rack head that is not of a wrong type starts LOADING with the ESCAPE pulse and the loading limit, one
that is raises WRONG_BAR; the channel sensor in LOADING makes the head the current bar and MEASURING begins; the spindle-entry
edge is latched with the count, and in MEASURING takes the drive off and gives the trip position. A channel that shows a bar
at its first accepted level, after the join, has it recorded as FOUND (R21, R192; assumption log 26), its type absent also with
a job present (R2; the model's choice, assumption log 22). That a head which enters the channel takes the place of such a
record, which nothing else has removed, is the model's choice too (assumption log 26). That the latch is consumed at the first
edge, so that a bounce sets it anew, is the model's choice (assumption log 18; R180). That the rows of pulse ends act whenever
they are sent is the model's choice (assumption log 25). -/
def Obligations.BarIsLoadedAndMeasured : Prop :=
  ∀ s : State, s.running = true → s.sig.cutLatch = none →
    (∀ head rest, s.bac.rack = head :: rest → s.fsq.st = .noBar → s.feedHeld = false → s.holdLoading = false →
      s.inp .channel = false → ∃ t, exec .rackLoad s = .next t ∧
        (head.wrongType = false → Follows false s { s with
          sig := { s.sig with zeroArmed := false }
          fsq := { s.fsq with
            st := .loading, begun := true, retry := false, move := none, trip := none, escape := some 300
            limit := some 3000 } } t) ∧
        (head.wrongType = true → t.bac = s.bac ∧ t.flt.feedPaused = some (.wrongBar, .noBar) ∧
          (s.flt.level = .normal → t.flt.level = .alert) ∧
          Follows false s (State.engine (s.stepFeed .wrongBar (some 1))) t)) ∧
    (s.bac.rack = [] ∨ s.fsq.st ≠ .noBar ∨ s.feedHeld = true ∨ s.holdLoading = true ∨ s.inp .channel = true →
      exec .rackLoad s = .next s) ∧
    exec .escapePulseEnd s = .next { s with fsq := { s.fsq with escape := none } } ∧
    (∀ l, ∃ t, exec (.channelChange l) s = .next t ∧
      (l = false ∨ (s.sig.filters[Input.channel.idx]).acc.isSome = true ∨ s.bac.current.isSome = true →
        Follows false s (s.setLevel .channel l).engine t) ∧
      (l = true → (s.sig.filters[Input.channel.idx]).acc = none → s.bac.current = none →
        Follows false s (State.engine { s.setLevel .channel true with bac := { s.bac with
          current := some ⟨none, .found, none, false, false⟩ } }) t) ∧
      ∀ head rest, l = true → s.fsq.st = .loading → s.bac.rack = head :: rest → s.feedHeld = false → s.fsq.begun = true →
        s.fsq.retry = false → s.fsq.limit.isSome = true →
        t.bac.current = some head ∧ t.bac.rack = rest ∧ t.fsq.st = .measuring ∧ Raised t .barLoaded) ∧
    ∀ l, ∃ t, exec (.spindleEntryEdge l) s = .next t ∧
      (l = false → Follows false s (s.setLevel .spindleEntry false).engine t) ∧
      (l = true → Follows false s (State.engine { s.setLevel .spindleEntry true with
        sig := { (s.setLevel .spindleEntry true).sig with spindleLatch := s.sig.spindleLatch.or (some s.fsq.e) } }) t) ∧
      ∀ m, l = true → s.fsq.st = .measuring → s.fsq.move = some m → m.leg = .main → m.phase = .driving → s.feedHeld = false →
        s.fsq.begun = true → s.fsq.retry = false → s.fsq.trip = none → s.sig.spindleLatch = none → s.fsq.still < 20 →
        t.fsq.trip = some (s.fsq.e.toInt * 100 / (s.cfg.edges : Int)) ∧ t.sig.spindleLatch = none ∧
        t.fsq.move = some { m with phase := .coasting, fast := false, halted := true }

/-- R6, R7, R18, R35: when the measuring move has settled with the trip position taken, the measurement is judged, and the
engine goes on with what is left of its 16 steps (assumption log 18). A length outside 5,000 to 400,000 is MEASURE_FAIL, the
move over; a length within them becomes the current bar's, a short bar is noticed with SHORT_BAR and sent to BAR_END, a length
outside the band of its type is noticed with BAR_LENGTH_ODD, and a verified bar of its own type that is in band is learned
where its type is not locked. Of a bar both short and out of band the notice BAR_LENGTH_ODD comes last, which is the model's
choice (assumption log 22). That MOVE_SETTLED acts whenever it is sent is the model's choice (assumption log 25). -/
def Obligations.MeasurementIsJudged : Prop :=
  (∀ (s : State) (m : Move) (trip : Int), s.running = true → s.feedHeld = false → s.fsq.begun = true → s.fsq.retry = false →
    s.sig.cutLatch = none → s.fsq.st = .measuring → s.fsq.move = some m → m.phase = .coasting → m.leg = .main →
    s.fsq.trip = some trip → ∃ t, exec .moveSettled s = .next t ∧ Follows false s
      (State.pump 15 (State.measured { s with fsq := { s.fsq with still := max s.fsq.still 20 } } trip)) t) ∧
  ∀ (s : State) (c : BarRec) (trip : Int), s.bac.current = some c →
    let lb := (s.cfg.xEntry : Int) - trip
    let m := s.measured trip
    let short := ∃ j, s.mpt.job = some j ∧ lb - j.lt < j.lg + (j.lp + j.wc + j.af : Nat)
    let odd := ∃ t, c.barType = some t ∧ (s.typeCfg t).nominal / 10 < (lb - (s.typeCfg t).nominal).natAbs
    ((lb < 5000 ∨ 400000 < lb) → m = s.dropMove.stepFeed .measureFail (some 0)) ∧
    (5000 ≤ lb → lb ≤ 400000 →
      m.bac.current = some { c with length := some lb.toNat } ∧ m.bac.rack = s.bac.rack ∧
      (short → m.fsq.st = .barEnd) ∧ (¬short → m.fsq.st = .positioning) ∧ m.fsq.begun = false ∧ m.fsq.move = none ∧
      (∀ t, c.barType = some t → ¬odd →
        m.bac.learned =
          if c.verified = true ∧ c.wrongType = false ∧ (s.typeCfg t).locked = false then
            setType s.bac.learned t
              { s.learnedOf t with
                la4 := if (s.learnedOf t).count = 0 then 4 * lb.toNat
                  else (s.learnedOf t).la4 + lb.toNat - (s.learnedOf t).la4 / 4
                count := min 255 ((s.learnedOf t).count + 1) }
          else s.bac.learned) ∧
      (odd ∨ c.barType = none → m.bac.learned = s.bac.learned) ∧
      (¬short → ¬odd → m.flt = s.flt ∧ m.mpt = s.mpt) ∧
      (short → ¬odd → m.flt = { s.flt with last := some (.shortBar, some 0), notices := s.flt.notices + 1 }) ∧
      (¬short → odd → m.flt = { s.flt with last := some (.barLengthOdd, some 0), notices := s.flt.notices + 1 }) ∧
      (short → odd → m.flt = { s.flt with last := some (.barLengthOdd, some 0), notices := s.flt.notices + 1 + 1 }) ∧
      (short ∨ odd → Raised m .barLoaded))

/-- R14, R42, R43: the retract starts at a collet that is open and a tray with room; the pulse of EJECT ends; the remnant edge
in EJECTING completes the ejection: the record goes with P_cut and the target, the remnant count rises, BAR_END is raised and
the engine leaves for LOT_DONE or NO_BAR. That the row of the pulse end acts whenever it is sent is the model's choice
(assumption log 25). -/
def Obligations.BarEndIsEjected : Prop :=
  ∀ s : State, s.running = true →
    (∀ p, s.fsq.st = .barEnd → s.feedHeld = false → s.fsq.begun = true → s.fsq.move = none → s.inp .colletOpen = true →
      s.bac.tray < s.cfg.trayCap → s.posn = some p → ∃ t, exec .barEndRetract s = .next t ∧
        Follows false s (State.engine { s with fsq := { s.fsq with
          quiet := if p ≤ s.cfg.runOn then s.fsq.quiet else 0
          move := some ⟨.main, .rev, some 0, if p ≤ s.cfg.runOn then .coasting else .driving,
            decide (¬p ≤ s.cfg.runOn ∧ s.cfg.slowZone < p.natAbs), false⟩ } }) t) ∧
    (s.fsq.st ≠ .barEnd ∨ s.feedHeld = true ∨ s.fsq.begun = false ∨ s.fsq.move.isSome = true ∨ s.inp .colletOpen = false ∨
      s.cfg.trayCap ≤ s.bac.tray → exec .barEndRetract s = .next s) ∧
    exec .ejectPulseEnd s = .next { s with fsq := { s.fsq with eject := none } } ∧
    ∃ t, exec .remnantEdge s = .next t ∧
      Follows false s (State.engine { s.setLevel .remnant true with
        sig := { (s.setLevel .remnant true).sig with remnantLatch := true } }) t ∧
      (s.fsq.st = .ejecting → s.feedHeld = false → s.fsq.begun = true → s.fsq.retry = false → s.fsq.limit.isSome = true →
        s.sig.cutLatch = none →
        t.bac = { s.bac with current := none, tray := min s.cfg.trayCap (s.bac.tray + 1) } ∧ t.fsq.pCut = none ∧
        t.fsq.target = none ∧ t.sig.remnantLatch = false ∧ t.flt = s.flt ∧ Raised t .barEnd ∧
        t.fsq.st = if s.lotReached then .lotDone else .noBar)

/-- R40, R178, R179, R184, R185, R219: before the join a line of the loader, of the belt or of the lathe control changes its
accepted level, and its latch where it has one, and nothing else; no other block acts on it. This is the model's reading
(assumption log 7). -/
def Obligations.LinesBeforeTheJoin : Prop :=
  ∀ (s : State) (l : Bool), s.running = false →
    exec .feedReqRaised s = .next (s.setLevel .feedReq true) ∧ exec .feedReqDropped s = .next (s.setLevel .feedReq false) ∧
    exec .colletOpenAsserted s = .next (s.setLevel .colletOpen true) ∧
    exec .colletOpenDropped s = .next (s.setLevel .colletOpen false) ∧
    exec (.homeSwEdge l) s = .next (s.setLevel .homeSw l) ∧ exec (.fwdLimitActive l) s = .next (s.setLevel .fwdLimit l) ∧
    exec (.guardOpen l) s = .next (s.setLevel .guard l) ∧ exec (.channelChange l) s = .next (s.setLevel .channel l) ∧
    exec (.trayBottomChange l) s = .next (s.setLevel .trayBottom l) ∧
    (let v := s.setLevel .cutDone true
     exec .cutDoneEdge s = .next { v with sig := { v.sig with
      cutLatch := s.sig.cutLatch.or (some (s.inp .outcomeA, s.inp .outcomeB)) } }) ∧
    exec (.spindleEntryEdge false) s = .next (s.setLevel .spindleEntry false) ∧
    (let v := s.setLevel .spindleEntry true
     exec (.spindleEntryEdge true) s = .next { v with sig := { v.sig with
      spindleLatch := s.sig.spindleLatch.or (some s.fsq.e) } }) ∧
    (let v := s.setLevel .remnant true
     exec .remnantEdge s = .next { v with sig := { v.sig with remnantLatch := true } }) ∧
    (let v := s.setLevel .rackEntry true
     exec .rackEntryEdge s = .next { v with sig := { v.sig with rackLatch := true } }) ∧
    (let v := s.setLevel .trayEntry true
     exec .trayEntryEdge s = .next { v with sig := { v.sig with trayLatch := true } }) ∧
    (let v := s.setLevel .binEntry true
     exec .binEntryEdge s = .next { v with sig := { v.sig with binLatch := true } }) ∧
    (let v := s.setLevel .dropSense true
     exec .dropSenseEdge s = .next { v with sig := { v.sig with dropLatch := true } }) ∧
    (let v := s.setLevel .index true
     exec .indexEdge s = .next { v with sig := { v.sig with indexLatch := true } }) ∧
    let v := s.setLevel .home true
    exec .homeEdge s = .next { v with sig := { v.sig with homeLatch := true } }

/-! ## Rounds, belt, catch and drop -/

/-- R3, R4, R107 to R110: in EN_ROUTE a rack entry edge completes a delivery that is awaited, and is held 5 s as the early
edge otherwise; DELIVERED naming the station completes the delivery on a held edge and waits 5 s for the edge otherwise. Every
other rack entry edge, and an early edge whose window ends, is a manual bar: a MANUAL record at the tail where fewer than 3
records wait, the notice RACK_OVERFILL otherwise. A delivery window that ends takes the en-route record away. A DELIVERED with
a field out of its range sets the age of the view alone (R98). That the rows of the two windows act whenever they are sent is
the model's choice (assumption log 25). -/
def Obligations.RackEntryAndDelivery : Prop :=
  ∀ s : State, s.running = true →
    let manual (w u : State) : Prop :=
      if s.bac.rack.length + (if s.bac.enRoute.isSome then 1 else 0) < 3 then
        u = { w with bac := { s.bac with rack := s.bac.rack ++ [{
          barType := s.mpt.job.map (·.barType), origin := .manual, length := none, verified := false, wrongType := false }] } }
      else u = noticed w .rackOverfill none .shuttleNotice
    let arrived (w u : State) (ty : Nat) : Prop :=
      let y : State := { w with psr := { w.psr with delivery := none, earlyEdge := none, dispatch := s.restState } }
      (∀ b, s.bac.enRoute = some b → u = { y with bac := { s.bac with enRoute := none, rack := s.bac.rack ++ [{ b with
        barType := some ty, verified := true, wrongType := wrongTypeOf s.mpt.job (some ty) }] } }) ∧
      (s.bac.enRoute = none → u = y)
    (let v := s.setLevel .rackEntry true
     ∃ t u, exec .rackEntryEdge s = .next t ∧ Follows false s (State.engine u) t ∧
        (s.psr.dispatch ≠ .enRoute → manual v u) ∧
        (∀ d, s.psr.dispatch = .enRoute → s.psr.delivery = some d → arrived v u d.1) ∧
        (s.psr.dispatch = .enRoute → s.psr.delivery = none → s.psr.earlyEdge = none →
          u = { v with psr := { s.psr with earlyEdge := some 5000 } }) ∧
        (s.psr.dispatch = .enRoute → s.psr.delivery = none → s.psr.earlyEdge.isSome = true → manual v u)) ∧
    (∃ t u, exec .earlyEdgeWindowEnd s = .next t ∧ Follows false s (State.engine u) t ∧
      (s.psr.earlyEdge = none → u = s) ∧
      (s.psr.earlyEdge.isSome = true → manual { s with psr := { s.psr with earlyEdge := none } } u)) ∧
    (∃ t u, exec .deliveryWindowEnd s = .next t ∧ Follows false s (State.engine u) t ∧
      (s.psr.delivery = none → u = s) ∧
      (s.psr.delivery.isSome = true → u = noticed { s with
        psr := { s.psr with delivery := none, dispatch := s.restState }
        bac := { s.bac with enRoute := none } } .deliveryMissing none .shuttleNotice)) ∧
    ∀ st ty : Byte, s.alc.st ≠ .off → s.alc.waitGap = false →
      let v : State := { s with alc := { s.alc with ownObj := 0, mute := false }, psr := { s.psr with shuttleAge := 0 } }
      let fits := (1 ≤ st.toNat ∧ st.toNat ≤ 62) ∧ 1 ≤ ty.toNat ∧ ty.toNat ≤ 15
      (¬fits → ∃ t, exec (.shuttleDelivered st ty) s = .next t ∧ Follows false s v.engine t) ∧
      (fits → ∃ t u, exec (.shuttleDelivered st ty) s = .next t ∧ Follows true s (State.engine u) t ∧
        (st.toNat ≠ s.own ∨ s.psr.dispatch ≠ .enRoute → u = v) ∧
        (st.toNat = s.own → s.psr.dispatch = .enRoute → s.psr.earlyEdge.isSome = true → arrived v u ty.toNat) ∧
        (st.toNat = s.own → s.psr.dispatch = .enRoute → s.psr.earlyEdge = none → u = { v with psr := { v.psr with
          delivery := some (ty.toNat, (s.psr.delivery.map (·.2)).getD 5000) } }))

/-- R115, R116, R118 to R122: INDEX closes a window still open, with its miss, then advances B around the loop and frees the
pocket that passes the tip; FILLING counts to N advances and is then SYNCED; a paired HOME starts FILLING, confirms B = 0, or
finds the sync lost, in FILLING as in SYNCED; an advance to 0 without a HOME is a miss, the second with a notice; a HOME that
cannot be paired is a stray. The second miss, a lost sync and a stray each raise BELT_SYNC_LOST, the last notice then, with
one notice more and the event, and a lost sync is a resync (R128, R156, R160); no other of these pulses does, and at an INDEX
a claim that passes with its part unserved raises PART_MISSING, its notice after that of a miss. At an advance the gate
closes and the claims of the table act (R146, R148 to R150): the nearest, ARMED at the drop point, opens the gate over its
pocket for the record it serves, HELD there, or with the unload engine paused or the level SAFE, it is released, and the next
one at a = 1 is checked for arming for the record it now serves; one at a = 1 is checked; a QUEUED claim below Lmin ends; any
other stays; and a selection is attempted last (R144). A HELD or ARMED claim whose pocket is freed at the tip is lost without
a telegram (R153). A drop confirmation that still runs ends as not seen (R151). Of the rest the command itself changes
nothing: of the inputs the level of its pulse alone; of the unload sequencer neither the catch window nor the totals caught
and binned; of the fault record the last notice alone, and at an advance what DROP_UNCONFIRMED records. The feed engine then
takes what stands ready. The model's readings: a paired window stays open until its time, an INDEX pairing a held HOME opens
none (assumption log 14), a CLAIM in flight at a resync is marked (log 12). Its choices: a window's row acts whenever it is
sent (log 25), and GATE stays driven for its time after a resync (log 12). -/
def Obligations.BeltFollowsItsPulses : Prop :=
  ∀ s : State, s.running = true →
    let n := s.cfg.pockets
    let rest (v : State) (advances : Bool) (does : State → Prop) (t : State) : Prop :=
      (∃ u, Follows false s (State.engine u) t ∧ does u ∧
        u = { v with
          blt := u.blt, alc := { s.alc with queue := u.alc.queue, doubt := u.alc.doubt }
          mpt := { s.mpt with sources := u.mpt.sources }
          flt := { s.flt with
            level := u.flt.level, alert := u.flt.alert, further := u.flt.further, furtherSet := u.flt.furtherSet
            unloadPaused := u.flt.unloadPaused, last := u.flt.last, notices := u.flt.notices }
          uns := { s.uns with
            hold := u.uns.hold, closing := u.uns.closing, active := u.uns.active, gate := u.uns.gate
            confirm := u.uns.confirm, yield := u.uns.yield, dropped := u.uns.dropped } } ∧
        (∀ e : EventSrc, e ∉ [EventSrc.lineNotice, .partMissing, .beltSynced, .alertEntered] →
          u.mpt.sources[e.idx] = s.mpt.sources[e.idx]) ∧
        (advances = false ∨ s.uns.confirm = none → u.flt = { s.flt with last := u.flt.last, notices := u.flt.notices } ∧
          u.uns.hold = s.uns.hold ∧ u.uns.dropped = s.uns.dropped) ∧
        (advances = false → u.uns = { s.uns with closing := u.uns.closing, active := u.uns.active })) ∧
      (engineRests s = true →
        base { t with sig := s.sig, blt := s.blt, flt := s.flt, alc := s.alc, uns := s.uns } = base s ∧
        t.uns.hold.length ≤ s.uns.hold.length ∧ t.uns.caught = s.uns.caught ∧ t.uns.catching = s.uns.catching)
    let missed := s.blt.sync ≠ .unsynced ∧ ∃ w, s.blt.advance = some w ∧ w.wrapped = true ∧ w.paired = false
    let unknown := List.replicate n Entry.unknown
    let said (v u : State) : Prop := u = noticed v .beltSyncLost none .lineNotice
    let source (e : EventSrc) (yes : Bool) (u : State) : Prop :=
      u.mpt.sources[e.idx] = if yes then (raising s.mpt e).sources[e.idx] else s.mpt.sources[e.idx]
    let index := rest (s.setLevel .index true) true fun u => ∃ (second lost : Bool) (passed : Option Nat),
      (second = true ↔ missed ∧ s.blt.misses = 1) ∧
      (lost = true ↔ s.blt.homeHeld.isSome = true ∧ ∃ b, s.blt.sync.b? = some b ∧ (b + 1) % n ≠ 0) ∧
      (∀ p, passed = some p → (∃ c ∈ s.uns.active, c.pocket = p ∧ c.stage ≠ .queued) ∧
        ∃ b, s.blt.sync.b? = some b ∧ arrivalOf n s.cfg.dropDist ((b + 1) % n) p = 0) ∧
      u.flt.notices = s.flt.notices + BitVec.ofNat 16 (second.toNat + passed.isSome.toNat + lost.toNat) ∧
      u.flt.last = (if lost then some (.beltSyncLost, none) else match passed with
        | some p => some (.partMissing, some p)
        | none => if second then some (.beltSyncLost, none) else s.flt.last) ∧
      source .lineNotice (second || lost) u ∧ source .partMissing passed.isSome u
    let home := rest (s.setLevel .home true) false fun u =>
      let v := s.setLevel .home true
      (s.blt.homeHeld.isSome = true → said v u) ∧
      (s.blt.homeHeld = none → s.blt.advance = none → u = { v with blt := { s.blt with homeHeld := some 20 } }) ∧
      ∀ w, s.blt.homeHeld = none → s.blt.advance = some w →
        let x : State := { v with blt := { s.blt with advance := some { w with paired := true } } }
        let filling (y : State) : State := { y with blt := { y.blt with sync := .filling 0 0 } }
        (w.paired = true → said v u) ∧
        (w.paired = false → s.blt.sync = .unsynced → u = filling x) ∧
        (w.paired = false → ∀ b, s.blt.sync.b? = some b →
          (b = 0 → u = { x with blt := { x.blt with misses := 0 } }) ∧
          (b ≠ 0 → u = filling (resynced (noticed x .beltSyncLost none .lineNotice))))
    let window := rest s false fun u =>
      (s.blt.advance = none → u = s) ∧
      (s.blt.advance.isSome = true → ¬missed → u = { s with blt := { s.blt with advance := none } }) ∧
      (missed → let x : State := { s with blt := { s.blt with advance := none, misses := min 255 (s.blt.misses + 1) } }
        (s.blt.misses = 1 → said x u) ∧ (s.blt.misses ≠ 1 → u = x))
    let hold := rest s false fun u =>
      (s.blt.homeHeld = none → u = s) ∧
      (s.blt.homeHeld.isSome = true → said { s with blt := { s.blt with homeHeld := none } } u)
    (∃ t, exec .indexEdge s = .next t ∧ index t ∧ (s.blt.homeHeld = none →
      ∃ misses, (missed → misses = min 255 (s.blt.misses + 1) ∧ (s.blt.misses = 1 → Raised t .lineNotice)) ∧
        (¬missed → misses = s.blt.misses) ∧
        (s.blt.sync = .unsynced → t.blt = { s.blt with misses := misses, advance := some ⟨20, false, false⟩ }) ∧
        (∀ b, s.blt.sync = .synced b → let b' := (b + 1) % n
          t.blt = { s.blt with
            misses := misses, sync := .synced b', map := s.blt.map.set b' .free, advance := some ⟨20, false, b' == 0⟩ }) ∧
        ∀ b f, s.blt.sync = .filling b f → let b' := (b + 1) % n
          t.blt = { s.blt with
            misses := misses, sync := if n ≤ f + 1 then .synced b' else .filling b' (f + 1)
            map := s.blt.map.set b' .free, advance := some ⟨20, false, b' == 0⟩ } ∧
          (n ≤ f + 1 → t.alc.doubt = false ∧ Raised t .beltSynced))) ∧
    (∀ b, s.blt.sync = .synced b → s.blt.advance = none → s.blt.homeHeld = none → engineRests s = true →
      s.uns.confirm = none → 2 ≤ s.cfg.lmin → s.cfg.lmax < n →
      let at' (p : Nat) := arrivalOf n s.cfg.dropDist ((b + 1) % n) p
      let serves (hold : List PartRec) (closing : List ClosingClaim) : Option PartRec :=
        hold.find? fun r => !r.dropped && closing.all fun e => e.bound != some r.seq
      let part := serves s.uns.hold s.uns.closing
      let free := s.flt.unloadPaused = none ∧ s.flt.level ≠ .safe
      let stageFor (r : Option PartRec) : ClaimStage := if r.isSome ∧ s.inp .trayBottom = true then .armed else .held
      (s.uns.active.map fun x => at' x.pocket).Pairwise (· < ·) →
      (∀ x ∈ s.uns.active, x.stage ≠ .queued → x.pocket ≠ (b + 1) % n) →
      ∃ t, exec .indexEdge s = .next t ∧
        (∀ x ∈ s.uns.active,
          (x.stage ≠ .queued → 2 ≤ at' x.pocket → x ∈ t.uns.active) ∧
          (x.stage = .queued → s.cfg.lmin ≤ at' x.pocket →
            x ∈ t.uns.active ∧ ∀ e ∈ s.alc.queue, e.kind = .claim x.pocket → e ∈ t.alc.queue) ∧
          (x.stage = .queued → at' x.pocket < s.cfg.lmin →
            ((∀ e ∈ s.alc.queue, e.kind = .claim x.pocket → e.inFlight = false) →
              (∀ y ∈ t.uns.active, y.pocket ≠ x.pocket) ∧ ∀ e ∈ t.alc.queue, e.kind ≠ .claim x.pocket) ∧
            ((∃ e ∈ s.alc.queue, e.kind = .claim x.pocket ∧ e.inFlight = true) →
              x ∈ t.uns.active ∧ ∀ e ∈ t.alc.queue, e.kind = .claim x.pocket → e.inFlight = true ∧ e.leaving = true))) ∧
        (∀ x ∈ t.uns.active, s.uns.names x.pocket = false → x.stage = .queued ∧ t.entryAt x.pocket = .free ∧
          (∃ a, s.cfg.lmin ≤ a ∧ a ≤ s.cfg.lmax ∧ x.pocket = t.pocketAt a) ∧ ∃ e ∈ t.alc.queue, e.kind = .claim x.pocket) ∧
        (MayAdd t → t.accepts = true → ∀ a, ¬Claimable t a) ∧
        ∀ c more, s.uns.active = c :: more → (∀ e ∈ s.uns.closing, e.pocket ≠ c.pocket) →
          let a := at' c.pocket
          (∀ r, c.stage = .armed → a = 0 → part = some r → free →
            t.uns.closing = s.uns.closing ++ [⟨c.pocket, .dropping, some r.seq⟩] ∧ t.uns.gate = some s.cfg.gateMs ∧
            t.uns.confirm = some (s.cfg.gateMs + 100) ∧ ∀ x ∈ t.uns.active, x.pocket ≠ c.pocket) ∧
          (c.stage = .held ∨ c.stage = .armed ∧ (¬free ∨ part = none) → a = 0 →
            t.uns.gate = none ∧ (∀ x ∈ t.uns.active, x.pocket ≠ c.pocket) ∧ t.uns.hold = s.uns.hold ∧
            (part.isSome = true → t.flt.last = some (.partMissing, some c.pocket) ∧ Raised t .partMissing) ∧
            (part = none → t.flt = s.flt) ∧
            (s.accepts = true → t.uns.closing = s.uns.closing ++ [⟨c.pocket, .awaitRelease, none⟩] ∧
              ∃ e ∈ t.alc.queue, e.kind = .release c.pocket) ∧
            (s.accepts = false → (∀ x ∈ more, x.stage = .queued → s.cfg.lmin ≤ at' x.pocket) →
              t.uns.closing = s.uns.closing)) ∧
          (∀ d last, c.stage ≠ .queued → a = 0 → more = d :: last → d.stage ≠ .queued → at' d.pocket = 1 →
            ∃ after, t.uns.active = ⟨d.pocket, stageFor (serves t.uns.hold t.uns.closing)⟩ :: after) ∧
          (c.stage ≠ .queued → a = 1 → t.uns.gate = none ∧ t.uns.closing = s.uns.closing ∧
            ∃ after, t.uns.active = ⟨c.pocket, stageFor part⟩ :: after) ∧
          (c.stage = .queued ∨ 2 ≤ a → t.uns.gate = none ∧ t.uns.closing = s.uns.closing)) ∧
    (∀ b, s.blt.sync.b? = some b → s.blt.homeHeld = none → engineRests s = true → s.uns.confirm = none →
      s.entryAt ((b + 1) % n) ≠ .free → (s.uns.active.map (·.pocket)).Nodup →
      ∃ t, exec .indexEdge s = .next t ∧ (∀ x ∈ t.uns.active, x.pocket = (b + 1) % n → x.stage = .queued) ∧
        (∀ e ∈ t.uns.closing, e.pocket = (b + 1) % n → e ∈ s.uns.closing) ∧
        ∀ e ∈ t.alc.queue, e.kind = .release ((b + 1) % n) → e ∈ s.alc.queue) ∧
    (∀ b c q r, s.blt.sync.b? = some b → s.blt.homeHeld = none → engineRests s = true → s.uns.confirm.isSome = true →
      s.uns.closing = [c] → (c.stage = .dropping ∨ c.stage = .awaitConfirm) → c.bound = some q →
      s.uns.hold.find? (·.seq == q) = some r → s.uns.active = [] →
      let marked := s.uns.hold.map fun x => if x.seq = q then { x with dropped := true } else x
      let leaves (t : State) (hold : List PartRec) (closing : List ClosingClaim) (dropped : Word32) : Prop :=
        t.uns = { s.uns with
          yield := s.uns.yield - 1, confirm := none, gate := none, hold := hold, closing := closing, dropped := dropped }
      ∃ t, exec .indexEdge s = .next t ∧
        (s.inp .trayBottom = true →
          (s.accepts = true → leaves t s.uns.hold [⟨c.pocket, .awaitRelease, none⟩] s.uns.dropped ∧
            ∃ e ∈ t.alc.queue, e.kind = .release c.pocket) ∧
          (s.accepts = false → leaves t s.uns.hold [] s.uns.dropped) ∧
          (s.flt.level ≠ .safe → t.flt.unloadPaused = some (.dropUnconfirmed, .partInTray))) ∧
        (s.inp .trayBottom = false →
          (s.accepts = true → leaves t marked [⟨c.pocket, .awaitDrop, some q⟩] s.uns.dropped ∧
            ∃ e ∈ t.alc.queue, e.kind = .drop c.pocket .unverified q) ∧
          (s.accepts = false → leaves t (marked.eraseP (·.seq == q)) [] (s.uns.dropped + 1)) ∧
          (s.flt.level ≠ .safe → t.flt.unloadPaused = some (.dropUnconfirmed, .trayEmpty))) ∧
        (s.flt.level = .normal → t.flt.level = .alert ∧ Raised t .alertEntered ∧
          ∃ g, t.flt.alert = some g ∧ g.kind = .dropUnconfirmed ∧ g.engine = .unload ∧ g.ctx = some c.pocket)) ∧
    (∀ h, s.blt.homeHeld = some h → ∃ t, exec .indexEdge s = .next t ∧ index t ∧
      let good (sync : Sync) : Prop := t.blt = { s.blt with
        homeHeld := none, advance := none, sync := sync, misses := 0, map := s.blt.map.set 0 .free }
      let lost : Prop := t.blt = { s.blt with
        homeHeld := none, advance := none, sync := .filling 0 0, misses := 0, map := unknown } ∧ Raised t .lineNotice
      (s.blt.sync = .unsynced → t.blt = { s.blt with homeHeld := none, advance := none, sync := .filling 0 0 }) ∧
      (∀ b, s.blt.sync = .synced b → if (b + 1) % n = 0 then good (.synced 0) else lost) ∧
      ∀ b f, s.blt.sync = .filling b f →
        if (b + 1) % n = 0 then good (if n ≤ f + 1 then .synced 0 else .filling 0 (f + 1)) ∧
          (n ≤ f + 1 → t.alc.doubt = false ∧ Raised t .beltSynced) else lost) ∧
    (∃ t, exec .homeEdge s = .next t ∧ home t ∧
      (∀ h, s.blt.homeHeld = some h → t.blt = s.blt ∧ Raised t .lineNotice) ∧
      (s.blt.homeHeld = none → s.blt.advance = none → t.blt = { s.blt with homeHeld := some 20 }) ∧
      (∀ w, s.blt.homeHeld = none → s.blt.advance = some w → w.paired = true → t.blt = s.blt ∧ Raised t .lineNotice) ∧
      ∀ w, s.blt.homeHeld = none → s.blt.advance = some w → w.paired = false →
        let paired := some { w with paired := true }
        let good : Prop := t.blt = { s.blt with advance := paired, misses := 0 }
        let lost : Prop := t.blt = { s.blt with advance := paired, sync := .filling 0 0, misses := 0, map := unknown } ∧
          Raised t .lineNotice
        (s.blt.sync = .unsynced → t.blt = { s.blt with advance := paired, sync := .filling 0 0 }) ∧
        (∀ b, s.blt.sync = .synced b → if b = 0 then good else lost) ∧
        ∀ b f, s.blt.sync = .filling b f → if b = 0 then good else lost) ∧
    (∃ t, exec .advanceWindowEnd s = .next t ∧ window t ∧ (s.blt.advance = none → t.blt = s.blt) ∧
      (s.blt.advance.isSome = true → ¬missed → t.blt = { s.blt with advance := none }) ∧
      (missed → t.blt = { s.blt with advance := none, misses := min 255 (s.blt.misses + 1) } ∧
        (s.blt.misses = 1 → Raised t .lineNotice))) ∧
    ∃ t, exec .homeHoldWindowEnd s = .next t ∧ hold t ∧ t.blt = { s.blt with homeHeld := none } ∧
      (s.blt.homeHeld.isSome = true → Raised t .lineNotice)

/-- R78, R80, R85, R96, R123 to R126: a good CLAIM, DROP or RELEASE of another station sets the age of its record to 0 and
acts on the entry of its pocket: a CLAIM takes a FREE pocket, a DROP loads any, a RELEASE frees what its sender has claimed,
and a pocket beyond the belt or UNKNOWN is left alone; a CLAIM or DROP on a pocket claimed by self is a conflict. An own claim
still QUEUED ends with a rival CLAIM or DROP on its pocket and its CLAIM leaves the queue, one in flight at the end of its
attempt; a HELD or ARMED claim is lost with a rival DROP, and a DROPPING one becomes CLOSING, its confirmation going on (R89,
R146, R153). A frame no owner takes sets the age alone. A good frame with the own address, of any telegram of a station, takes
the station off the line, its queue cleared and every owner told (R79, R90, R102, R152), its view in doubt and its belt
unsynced by a resync (R81, R128, R156); it reaches no owner. That GATE stays driven for its time once a rival DROP or a resync
has taken the entry out of DROPPING is the model's choice, and the mark of a CLAIM in flight at a resync its reading
(assumption log 12); how the rest of an own frame cut off is read is its choice (assumption log 30). -/
def Obligations.TelegramsActOnThePocketMap : Prop :=
  ∀ (s : State) (i : Instr) (a : LineAddr), s.running = true → s.alc.st ≠ .off → s.alc.waitGap = false →
    engineRests s = true → a ≠ 0 → a ≠ 63 →
    let aged (t : State) : Prop := t.psr.peers = s.psr.peers.map (fun r => if r.addr = a.toNat then { r with age := 0 } else r) ∧
      t.alc.ownObj = 0 ∧ t.alc.mute = false ∧ t.alc.st = s.alc.st ∧
      base { t with alc := s.alc, psr := s.psr, blt := s.blt, uns := s.uns, flt := s.flt } = base s ∧ t.uns.hold = s.uns.hold
    let known (p : Nat) : Prop := p < s.cfg.pockets ∧ s.entryAt p ≠ .unknown
    let conflict (t : State) (p : Nat) : Prop := Raised t .lineNotice ∧
      t.flt = { s.flt with last := some (.claimConflict, some p), notices := s.flt.notices + 1 }
    let ends (t : State) (p : Nat) : Prop := s.uns.active.find? (·.pocket == p) = some ⟨p, .queued⟩ →
      ((∀ e ∈ s.alc.queue, e.kind = .claim p → e.inFlight = false) →
        (∀ c ∈ t.uns.active, c.pocket ≠ p) ∧ ∀ e ∈ t.alc.queue, e.kind ≠ .claim p) ∧
      ((∃ e ∈ s.alc.queue, e.kind = .claim p ∧ e.inFlight = true) →
        ⟨p, .queued⟩ ∈ t.uns.active ∧ ∀ e ∈ t.alc.queue, e.kind = .claim p → e.inFlight = true ∧ e.leaving = true)
    (a.toNat ≠ s.own →
      (∀ p, i = .claim a p → ∃ t, exec i s = .next t ∧ aged t ∧
        (s.entryAt p.toNat = .free → known p.toNat → t.blt = { s.blt with map := s.blt.map.set p.toNat (.claimed a.toNat) }) ∧
        (s.entryAt p.toNat ≠ .free ∨ ¬known p.toNat → t.blt = s.blt) ∧
        (s.entryAt p.toNat = .free → known p.toNat → ends t p.toNat) ∧
        (s.entryAt p.toNat = .claimed s.own → known p.toNat → conflict t p.toNat ∧
          ∀ c ∈ s.uns.active, ∃ d ∈ t.uns.active, d.pocket = c.pocket) ∧
        (s.entryAt p.toNat ≠ .claimed s.own ∨ ¬known p.toNat → t.flt = s.flt)) ∧
      (∀ p m n, i = .drop a p m n → ∃ t, exec i s = .next t ∧ aged t ∧
        (∀ mk, Mark.ofCode m.toNat = some mk → known p.toNat →
          t.blt = { s.blt with map := s.blt.map.set p.toNat (.loaded a.toNat mk n) } ∧
          (s.entryAt p.toNat ≠ .loaded a.toNat mk n → ends t p.toNat ∧
            (∀ g, s.uns.active.find? (·.pocket == p.toNat) = some ⟨p.toNat, g⟩ → g = .held ∨ g = .armed →
              ∀ c ∈ t.uns.active, c.pocket ≠ p.toNat) ∧
            ∀ b, s.uns.closing.find? (·.pocket == p.toNat) = some ⟨p.toNat, .dropping, b⟩ →
              (∀ c ∈ s.uns.active, c.pocket ≠ p.toNat) → t.uns.confirm = s.uns.confirm ∧ t.uns.gate = s.uns.gate ∧
                t.uns.closing = s.uns.closing.map fun c => if c.pocket = p.toNat then { c with stage := .awaitConfirm } else c) ∧
          (s.entryAt p.toNat = .claimed s.own → conflict t p.toNat) ∧ (s.entryAt p.toNat ≠ .claimed s.own → t.flt = s.flt)) ∧
        (Mark.ofCode m.toNat = none ∨ ¬known p.toNat → t.blt = s.blt ∧ t.flt = s.flt)) ∧
      (∀ p, i = .release a p → ∃ t, exec i s = .next t ∧ aged t ∧ t.flt = s.flt ∧
        (s.entryAt p.toNat = .claimed a.toNat → known p.toNat → t.blt = { s.blt with map := s.blt.map.set p.toNat .free }) ∧
        (s.entryAt p.toNat ≠ .claimed a.toNat ∨ ¬known p.toNat → t.blt = s.blt)) ∧
      (∀ c q, i = .goodFrameNoOwner c a q → ∃ t, exec i s = .next t ∧ aged t ∧ t.blt = s.blt ∧ t.flt = s.flt)) ∧
    (a.toNat = s.own → ((∃ p, i = .claim a p) ∨ (∃ p m n, i = .drop a p m n) ∨ (∃ p, i = .release a p) ∨
        (∃ b ty n, i = .dispatch a b ty n) ∨ (∃ sum ds n st b ty trip, i = .presence a sum ds n st b ty trip) ∨
        ∃ c q, i = .goodFrameNoOwner c a q) →
      ∃ t, exec i s = .next t ∧ t.alc.st = .quiet ∧ t.alc.doubt = true ∧ t.blt.sync = .unsynced ∧
        t.blt.map = List.replicate s.cfg.pockets .unknown ∧ t.uns.active = [] ∧ t.uns.hold.length ≤ s.uns.hold.length ∧
        t.bac = s.bac ∧ t.psr.peers = s.psr.peers ∧ t.psr.overflow = s.psr.overflow ∧
        (s.alc.st = .quiet → t.flt = s.flt ∧ t.uns.hold = s.uns.hold ∧ t.psr.dispatch = s.psr.dispatch) ∧
        (s.alc.st ≠ .quiet → t.flt.last = some (.addressClash, none) ∧ Raised t .lineNotice ∧ t.alc.queue = []) ∧
        let r : State := resynced { s with alc := { s.alc with ownObj := 0, mute := false, doubt := true } }
        ∃ u, Follows false s (State.engine u) t ∧ (s.alc.st = .quiet → u = r) ∧
          (s.alc.st ≠ .quiet → ToldAll (r.alc.queue.map (·.kind)) (noticed { r with alc := { r.alc with
            st := .quiet, timer := none, queue := [], unit := clearedUnit r.alc } } .addressClash none .lineNotice) u))

/-- R16, R134 to R138: while the catch window runs, the tray entry makes the part a record at the tail of the hold queue, the
bin entry bins it, and the end of the window loses it with a notice; with no window the edges change their level alone. A part
found at the tray bottom becomes a record of unknown outcome. A first part caught has a claim selected for it where claims are
added (R142 to R145): the nearest FREE pocket within Lmin to Lmax becomes QUEUED, its CLAIM is asked for and the yield counter
set; with no such pocket, with a condition of R143 failing, or with the station yielding, the table stays empty. Of every
selection attempt `Selected` says what it does; `Follows` says so of every command that gives an occasion of R144, and the
occasions are those given here: an entry that has left, a record that has joined, the entry to CUTTING, claims that may be added
and could not be before, and a pocket that has become FREE. That the row of the window end acts whenever it is sent is the
model's choice (assumption log 25). -/
def Obligations.CaughtPartsAreRecorded : Prop :=
  (∀ v : State, Selected v.uns (v.select 4)) ∧
  (∀ (v : State) (b a : Nat), v.blt.sync = .synced b → v.pocketAt a = (b + v.cfg.dropDist + a) % v.cfg.pockets) ∧
  (∀ s v : State, selectionDue s v = true ↔
    (∃ p, s.uns.names p = true ∧ v.uns.names p = false) ∨ s.uns.seq ≠ v.uns.seq ∨
    (v.fsq.st = .cutting ∧ s.fsq.st ≠ .cutting) ∨ (MayAdd v ∧ ¬MayAdd s) ∨
    ∃ (p : Nat) (e : Entry), v.blt.map[p]? = some .free ∧ s.blt.map[p]? = some e ∧ e ≠ .free) ∧
  ∀ s : State, s.running = true →
    let v := s.setLevel .trayEntry true
    let w := s.setLevel .binEntry true
    (s.uns.catching = none →
      (∃ t, exec .trayEntryEdge s = .next t ∧ Follows false s v.engine t) ∧
      (∃ t, exec .binEntryEdge s = .next t ∧ Follows false s w.engine t) ∧
      ∃ t, exec .catchWindowEnd s = .next t ∧ Follows false s s.engine t) ∧
    (∀ r n, s.uns.catching = some (r, n) →
      (let w : State := { v with uns := { s.uns with
        catching := none, seq := s.uns.seq + 1, caught := s.uns.caught + 1
        hold := s.uns.hold ++ [⟨s.uns.seq, some r.lot,
          if r.outcome = .good then .good else if r.outcome = .sample then .sample else .unknown, r.stamp, r.origin, false⟩] } }
       ∃ t, exec .trayEntryEdge s = .next t ∧ Follows false s w.engine t ∧
        (engineRests w = true → s.fsq.st ≠ .cutting → s.uns.hold = [] → s.uns.closing = [] → s.uns.active = [] → s.alc.queue = [] →
          let yields := s.uns.yield ≠ 0 ∧ ∃ p ∈ s.psr.peers, p.pressed = true ∧ p.ds < s.cfg.dropDist
          let allowed (b : Nat) : Prop := s.blt.sync = .synced b ∧ s.mpt.flags.getLsbD 0 = false ∧ s.flt.level ≠ .safe ∧
            s.alc.st = .active ∧ s.blt.mismatch = false ∧ s.flt.unloadPaused = none ∧ ¬yields
          ((¬∃ b, allowed b) → t.uns.active = []) ∧
          ∀ b, allowed b →
            let place (a : Nat) := (b + s.cfg.dropDist + a) % s.cfg.pockets
            ((∀ a, s.cfg.lmin ≤ a → a ≤ s.cfg.lmax → s.entryAt (place a) ≠ .free) → t.uns.active = []) ∧
            ∀ a, s.cfg.lmin ≤ a → a ≤ s.cfg.lmax → s.entryAt (place a) = .free →
              (∀ x, s.cfg.lmin ≤ x → x < a → s.entryAt (place x) ≠ .free) →
              t.uns.active = [⟨place a, .queued⟩] ∧ t.uns.yield = s.cfg.spacing ∧
                ∃ e ∈ t.alc.queue, e.kind = .claim (place a))) ∧
      (∃ t, exec .binEntryEdge s = .next t ∧ Follows false s (State.engine { w with
        bac := { s.bac with bin := min s.cfg.binCap (s.bac.bin + 1) }
        uns := { s.uns with catching := none, caught := s.uns.caught + 1, binned := s.uns.binned + 1 } }) t) ∧
      ∃ t, exec .catchWindowEnd s = .next t ∧ Follows false s
        (State.engine (noticed { s with uns := { s.uns with catching := none } } .partMissing none .partMissing)) t) ∧
    (s.foundDue = false → exec .foundPartRecord s = .next s) ∧
    (s.inp .trayBottom = true → (∀ r ∈ s.uns.hold, r.dropped = true ∨ ∃ c ∈ s.uns.closing, c.bound = some r.seq) →
      s.uns.catching = none → s.uns.confirm = none → s.fsq.st ≠ .feeding → s.fsq.st ≠ .cutting → s.uns.hold.length < 6 →
      ∃ t, exec .foundPartRecord s = .next t ∧ Follows false s (State.engine { s with uns := { s.uns with
        seq := s.uns.seq + 1, caught := s.uns.caught + 1
        hold := s.uns.hold ++ [⟨s.uns.seq, none, .unknown, s.uns.seconds, none, false⟩] } }) t)

/-- R86, R149 to R152, R161, R165: the gate closes at its time. A drop confirmation that sees the part marks the record as dropped
and asks for its DROP with the mark of its outcome; one that does not asks for the RELEASE and raises DROP_UNCONFIRMED with
PART_IN_TRAY while the tray shows a part, and otherwise asks for a DROP of an unverified part with TRAY_EMPTY. Where the line
takes no request, as in QUIET, the entry leaves at once, and with an awaited DROP its record, as a part dropped. That the rows
of the gate time and of the confirmation act whenever they are sent is the model's choice (assumption log 25), and so is that
GATE, open when the drop is seen, stays driven for the rest of its time, which R150 leaves open (assumption log 12). -/
def Obligations.DropIsConfirmed : Prop :=
  ∀ s : State, s.running = true →
    exec .gateTimeEnd s = .next { s with uns := { s.uns with gate := none } } ∧
    (∀ l, ∃ t, exec (.trayBottomChange l) s = .next t ∧ Follows false s (s.setLevel .trayBottom l).engine t) ∧
    (s.uns.confirm = none →
      (∃ t, exec .dropSenseEdge s = .next t ∧ Follows false s (s.setLevel .dropSense true).engine t) ∧
      ∃ t, exec .dropConfirmationTimeout s = .next t ∧ Follows false s s.engine t) ∧
    ∀ c q r, s.uns.confirm.isSome = true → s.uns.closing = [c] → (c.stage = .dropping ∨ c.stage = .awaitConfirm) →
      c.bound = some q → s.uns.hold.find? (·.seq == q) = some r →
      let marked := s.uns.hold.map fun x => if x.seq = q then { x with dropped := true } else x
      let joins (u : State) : Prop := (∀ e ∈ s.alc.queue, e ∈ u.alc.queue) ∧ u.alc.queue.length = s.alc.queue.length + 1
      let dropped (u : State) (m : Mark) : Prop :=
        (s.accepts = true → joins u ∧
          u.uns = { s.uns with confirm := none, hold := marked, closing := [⟨c.pocket, .awaitDrop, some q⟩] } ∧
          ∃ e ∈ u.alc.queue, e.kind = .drop c.pocket m q) ∧
        (s.accepts = false → u.alc = s.alc ∧ u.uns = { s.uns with
          confirm := none, hold := marked.eraseP (·.seq == q), closing := [], dropped := s.uns.dropped + 1 })
      (∃ t u, exec .dropSenseEdge s = .next t ∧ Follows false s (State.engine u) t ∧ u.flt = s.flt ∧
        u = { s.setLevel .dropSense true with uns := u.uns, alc := { s.alc with queue := u.alc.queue } } ∧
        dropped u (match r.outcome with | .good => .good | .sample => .sample | .unknown => .unverified)) ∧
      ∃ t u, exec .dropConfirmationTimeout s = .next t ∧ Follows false s (State.engine u) t ∧
        (let o : DropOutcome := if s.inp .trayBottom then .partInTray else .trayEmpty
         let counted : Flt := { s.flt with
           further := min 255 (s.flt.further + 1), furtherSet := setBit s.flt.furtherSet 7 true }
         u = { s with
           uns := u.uns, alc := { s.alc with queue := u.alc.queue }
           mpt := if s.flt.level = .normal then raising s.mpt .alertEntered else s.mpt
           flt := match s.flt.level with
             | .normal => { s.flt with
                 level := .alert, further := 0, furtherSet := 0, unloadPaused := some (.dropUnconfirmed, o)
                 alert := some ⟨.dropUnconfirmed, .unload, .drop o, some c.pocket, none, true⟩ }
             | .alert => { counted with unloadPaused := some (.dropUnconfirmed, o) }
             | .safe => counted }) ∧
        (s.inp .trayBottom = true →
          (s.accepts = true → joins u ∧ u.uns = { s.uns with confirm := none, closing := [⟨c.pocket, .awaitRelease, none⟩] } ∧
            ∃ e ∈ u.alc.queue, e.kind = .release c.pocket) ∧
          (s.accepts = false → u.alc = s.alc ∧ u.uns = { s.uns with confirm := none, closing := [] }) ∧
          (s.flt.level ≠ .safe → u.flt.unloadPaused = some (.dropUnconfirmed, .partInTray))) ∧
        (s.inp .trayBottom = false → dropped u .unverified ∧
          (s.flt.level ≠ .safe → u.flt.unloadPaused = some (.dropUnconfirmed, .trayEmpty)))

/-! ## The aisle line -/

/-- R72, R83, R84, R88: the timers take LISTENING to ACTIVE and WITHDRAWN to LISTENING with a fresh timer, ten recessive bits
end the wait for them, and at the end of an idle gap in ACTIVE with nothing in flight every entry is brought up to date
through its owner, the queue reordered, and the frame of its head started: a DROP, a RELEASE and a PRESENCE stay, and so do a
CLAIM whose pocket is FREE and within Lmin to Lmax and a DISPATCH still queued, each with its count; what its owner removes
goes, and the entry of a removed CLAIM with it. Each telegram then carries its class, key and own address (R73: the arrival
distance of a CLAIM, the escalated band of a DISPATCH) and the payload of its kind, a PRESENCE the state as it stands (R94,
R101, section 12.1). That a timer's row acts whenever its timer runs, that TRANSMIT_START acts
whenever it is sent in ACTIVE, and that a start ends the wait for the gap, are the model's choices (assumption logs 13 and
25). -/
def Obligations.LineTimersAndStarts : Prop :=
  ∀ s : State, s.running = true →
    exec .recessiveBitsSeen s = .next { s with alc := { s.alc with waitGap := false } } ∧
    (∃ t, exec .listeningTimerEnd s = .next t ∧ Follows false s (State.engine { s with alc :=
      if s.alc.st = .listening ∧ s.alc.timer.isSome then { s.alc with st := .active, timer := none } else s.alc }) t) ∧
    (∃ t, exec .withdrawnTimerEnd s = .next t ∧ Follows false s (State.engine { s with alc :=
      if s.alc.st = .withdrawn ∧ s.alc.timer.isSome then { s.alc with st := .listening, timer := some 2000 } else s.alc }) t) ∧
    ∃ t u, exec .transmitStart s = .next t ∧ Follows false s (State.engine u) t ∧
      (s.alc.st ≠ .active ∨ s.alc.queue = [] ∨ (∃ e ∈ s.alc.queue, e.inFlight = true) → u = s) ∧
      (s.alc.st = .active → s.alc.queue ≠ [] → (∀ e ∈ s.alc.queue, e.inFlight = false) →
        let valid (e : TxEntry) : Bool := match e.kind with
          | .claim p => (match s.arrival p with
            | some a => decide (s.cfg.lmin ≤ a ∧ a ≤ s.cfg.lmax ∧ s.entryAt p = .free)
            | none => false)
          | .dispatch => s.psr.dispatch == .queued
          | .drop _ _ _ => true
          | .release _ => true
          | .presence => true
        let standing (e : TxEntry) := (e.kind, e.fails, e.again, e.leaving)
        let trip : List Byte := [.ofNat 8 (s.cfg.trip / 256), .ofNat 8 s.cfg.trip]
        let heading : List Byte := [
          if s.flt.level = .safe then 1 else if s.flt.level = .alert then 2 else if s.mpt.job = none then 3
            else if s.fsq.st = .lotDone then 4 else if s.commanded .machineHold = true then 5 else 6,
          .ofNat 8 s.cfg.dropDist, .ofNat 8 s.cfg.pockets,
          .ofNat 8 (s.uns.hold.length + (if 4 ≤ s.uns.hold.length then 16 else 0) + if s.sfc.need.active then 128 else 0)]
        (u.alc.queue.map standing).Perm ((s.alc.queue.filter valid).map standing) ∧
        u.alc = { s.alc with queue := u.alc.queue, waitGap := false, unit := u.alc.unit } ∧
        (u.alc.queue.map (·.value)).Pairwise (· ≤ ·) ∧
        (∀ e ∈ u.alc.queue, e.value = s.valueOf e.kind ∧ e.payload = s.payloadOf e.kind ∧
          (∀ p m n, e.kind = .drop p m n → e.value = s.own ∧ e.payload = [1, .ofNat 8 p,
            (match m with | .good => 1 | .sample => 2 | .unverified => 3), .ofNat 8 (n.toNat / 256), .ofNat 8 n.toNat]) ∧
          (∀ p, e.kind = .release p → e.value = s.own ∧ e.payload = [2, .ofNat 8 p]) ∧
          (∀ p, e.kind = .claim p → ∃ b, (s.blt.sync = .synced b ∨ ∃ f, s.blt.sync = .filling b f) ∧
            e.value = 8192 + (((p : Int) - b - s.cfg.dropDist) % (s.cfg.pockets : Int)).toNat * 512 + s.own ∧
            e.payload = [.ofNat 8 p]) ∧
          (∀ band ty, e.kind = .dispatch → s.sfc.need.escBand = some band → s.sfc.need.barType = some ty →
            e.value = 16384 + band * 512 + s.own ∧ e.payload = [.ofNat 8 band, .ofNat 8 ty] ++ trip) ∧
          (e.kind = .presence → e.value = 32768 + s.own ∧
            (s.sfc.need.active = false → e.payload = heading) ∧
            ∀ band ty, s.sfc.need.active = true → s.sfc.need.baseBand = some band → s.sfc.need.barType = some ty →
              e.payload = heading ++ [.ofNat 8 band, .ofNat 8 ty] ++ trip)) ∧
        (u.alc.queue = [] → u.alc.unit = s.alc.unit) ∧
        (∀ e es, u.alc.queue = e :: es → e.inFlight = true ∧ (∀ x ∈ es, x.inFlight = false) ∧
          u.alc.unit = ⟨Frame.bits ⟨BitVec.ofNat 16 e.value, e.payload⟩, s.alc.unit.gap, .reading [] .plain⟩) ∧
        (∀ e ∈ s.alc.queue, valid e = false → ∀ p, e.kind = .claim p →
          s.uns.active.find? (·.pocket == p) = some ⟨p, .queued⟩ → ∀ c ∈ u.uns.active, c.pocket ≠ p) ∧
        u.uns = { s.uns with active := u.uns.active, closing := u.uns.closing } ∧
        u = { s with alc := u.alc, uns := u.uns })

/-- R74 to R77, R79 to R81, R84, R87, R89: a lost arbitration leaves the entry with its count; a failed attempt counts for the
entry and for the line, and at the eighth the telegram is discarded with a notice; at the fourth discard in a row the line is
WITHDRAWN with a second notice, the queue cleared and every owner told: a QUEUED claim and a queued round end, and the record
of an awaited DROP leaves as dropped (R79, R84, R90, R102, R152); an unreadable frame is objected to in LISTENING and ACTIVE
unless the station is mute or the frame began in WITHDRAWN, the eighth own objection in a row making it mute, and puts the
view in doubt with a resync otherwise (R128, R156; that GATE stays driven over it is the model's choice, and the mark of a
CLAIM in flight its reading, assumption log 12). The sender of a lost arbitration stops driving and reads on like any
receiver, that of a failed attempt stops and reads on the frame it has abandoned; an objection drives 8 dominant bits at once
after a stuff violation or an unusable length, and both bits of the window after a check mismatch or a dominant end bit. That
classes 5 to 7 are ignored, and a frame not heard too, is the model's choice (assumption log 13). An entry asked for again
while in flight stays, with its count at 0, and the send-again mark is cleared; one that its owner has removed while in flight
leaves with the attempt, its owner told, and the lost or failed attempt counts nowhere (R87, R89). One with both marks stays,
which is the model's choice (assumption log 13). -/
def Obligations.AttemptsAndUnreadableFrames : Prop :=
  ∀ s : State, s.running = true →
    ((∀ e ∈ s.alc.queue, e.inFlight = false) →
      (∃ t, exec .arbitrationLost s = .next t ∧ Follows false s s.engine t) ∧
      ∃ t, exec .attemptFailed s = .next t ∧ Follows false s s.engine t) ∧
    (∀ e, s.alc.flying = some e →
      let landed (n : Nat) := s.alc.queue.map fun x =>
        if x.inFlight then { x with inFlight := false, again := false, leaving := false, fails := n } else x
      let others := s.alc.queue.filter fun x => !x.inFlight
      let stopped : LineUnit := ⟨[], s.alc.unit.gap, match s.alc.unit.rx with
        | .reading bits _ => .reading bits .abandoned
        | .free seen => .free seen
        | .passing n _ => .passing n .abandoned⟩
      let lost (q : List TxEntry) : State := { s with alc := { s.alc with queue := q, unit := { s.alc.unit with tx := [] } } }
      let failed (count : Word16) (q : List TxEntry) : State :=
        { s with alc := { s.alc with failed := count, queue := q, unit := stopped } }
      let discarded : State := noticed { s with alc := { s.alc with
        failed := s.alc.failed + 1, discards := s.alc.discards + 1, consecutive := s.alc.consecutive + 1
        queue := others, unit := stopped } } .lineDiscard none .lineNotice
      (e.again = true →
        (∃ t, exec .arbitrationLost s = .next t ∧ Follows false s (lost (landed 0)).engine t) ∧
        ∃ t, exec .attemptFailed s = .next t ∧ Follows false s (failed (s.alc.failed + 1) (landed 0)).engine t) ∧
      (e.again = false → e.leaving = true →
        (∃ t u, exec .arbitrationLost s = .next t ∧ Follows false s (State.engine u) t ∧ Told e.kind (lost others) u) ∧
        ∃ t u, exec .attemptFailed s = .next t ∧ Follows false s (State.engine u) t ∧
          Told e.kind (failed s.alc.failed others) u) ∧
      (e.again = false → e.leaving = false →
        ∃ t, exec .arbitrationLost s = .next t ∧ Follows false s (lost (landed e.fails)).engine t) ∧
      (e.again = false → e.leaving = false → e.fails < 7 → ∃ t, exec .attemptFailed s = .next t ∧
        Follows false s (failed (s.alc.failed + 1) (landed (e.fails + 1))).engine t) ∧
      (e.again = false → e.leaving = false → 7 ≤ e.fails →
        ∃ t u, exec .attemptFailed s = .next t ∧ Follows false s (State.engine u) t ∧
        u.alc.failed = s.alc.failed + 1 ∧ u.alc.discards = s.alc.discards + 1 ∧ Raised u .lineNotice ∧
        u.alc.unit = stopped ∧
        (s.alc.consecutive < 3 → u.alc.st = s.alc.st ∧ u.alc.consecutive = s.alc.consecutive + 1 ∧
          u.alc.queue = others ∧ u.flt.last = some (.lineDiscard, none) ∧ u.flt.notices = s.flt.notices + 1 ∧
          Told e.kind discarded u) ∧
        (3 ≤ s.alc.consecutive → u.alc.st = .withdrawn ∧ u.alc.timer = some 2000 ∧ u.alc.consecutive = 0 ∧
          u.alc.queue = [] ∧ u.flt.last = some (.lineWithdrawn, none) ∧ u.flt.notices = s.flt.notices + 2 ∧
          ∃ w, Told e.kind discarded w ∧ ToldAll (others.map (·.kind)) (noticed { w with alc := { w.alc with
            st := .withdrawn, timer := some 2000, consecutive := 0, queue := [] } } .lineWithdrawn none .lineNotice) u))) ∧
    ∀ (cls : BitVec 3) (flaw : FrameFlaw) (w : Bool), ∃ t u, exec (.unreadableFrame cls flaw w) s = .next t ∧
      Follows false s (State.engine u) t ∧
      (s.alc.st = .off ∨ s.alc.waitGap = true ∨ 5 ≤ cls.toNat → u = s) ∧
      (s.alc.st ≠ .off → s.alc.waitGap = false → cls.toNat < 5 →
        if (s.alc.st = .listening ∨ s.alc.st = .active) ∧ s.alc.mute = false ∧ w = false then
          u = { s with alc := { s.alc with
            ownObj := min 8 (s.alc.ownObj + 1), mute := decide (7 ≤ s.alc.ownObj), objections := s.alc.objections + 1
            unit := { s.alc.unit with tx := if flaw = .stuffViolation ∨ flaw = .badLength then List.replicate 8 false
              else match s.alc.unit.rx with
                | .passing n _ => List.replicate (n - 2) true ++ [false, false]
                | .free _ => [false, false]
                | .reading _ _ => [false, false] } } }
        else u.alc.doubt = true ∧ u.alc.objections = s.alc.objections ∧ u.blt = { s.blt with
          sync := .unsynced, map := List.replicate s.cfg.pockets .unknown, misses := 0 } ∧ u.uns.active = [] ∧
          u.uns.hold = s.uns.hold ∧ u.flt = s.flt ∧ u = resynced { s with alc := { s.alc with doubt := true } })

/-- R78, R80, R102, R124 to R127, R147, R152: an own telegram that completes leaves the queue (a joined request is kept for
another attempt), clears the discards and objections in a row, and acts for its owner: a CLAIM makes its pocket claimed by
self and its entry HELD, a DROP loads the pocket, ending a claim still QUEUED for it, and its record leaves the hold queue, a
RELEASE frees the pocket and its entry leaves, a DISPATCH starts the wait for the shuttle, a PRESENCE has no owner to tell. So
it is with any claim table. With no such telegram in flight, the line empty or the frame of another kind in flight, nothing
happens. That a joined request is kept after a completed attempt, and with it an entry that its owner has removed since, both
marks cleared, is the model's reading of R87 and R89 (assumption log 13), and a row acts on the frame in flight whenever it is
sent, which is the model's choice (assumption log 25). -/
def Obligations.OwnTelegramsComplete : Prop :=
  ∀ (s : State) (i : Instr), s.running = true →
    (i ∈ [Instr.ownClaimCompleted, .ownDropCompleted, .ownReleaseCompleted, .ownDispatchCompleted, .ownPresenceCompleted] →
      (∀ e, s.alc.flying = some e → i ≠ match e.kind with
        | .claim _ => .ownClaimCompleted
        | .drop _ _ _ => .ownDropCompleted
        | .release _ => .ownReleaseCompleted
        | .dispatch => .ownDispatchCompleted
        | .presence => .ownPresenceCompleted) →
      ∃ t, exec i s = .next t ∧ Follows false s s.engine t) ∧
    ∀ e, s.alc.flying = some e →
      let left : List TxEntry :=
        if e.again then s.alc.queue.map fun x =>
          if x.inFlight then { x with inFlight := false, again := false, leaving := false, fails := 0 } else x
        else s.alc.queue.filter fun x => !x.inFlight
      let leaves (q : List TxEntry) (u : State) : Prop := u.alc = { s.alc with
          queue := q, consecutive := 0, ownObj := 0, mute := false, unit := ⟨[], 0, .free false⟩ } ∧
        u.bac = s.bac ∧ u.fsq = s.fsq ∧ u.flt = s.flt
      let gone (u : State) : Prop := leaves left u
      (e.kind = .presence → i = .ownPresenceCompleted →
        ∃ t u, exec i s = .next t ∧ Follows false s (State.engine u) t ∧ gone u ∧ u = { s with alc := u.alc }) ∧
      (e.kind = .dispatch → i = .ownDispatchCompleted →
        ∃ t u, exec i s = .next t ∧ Follows false s (State.engine u) t ∧ gone u ∧
          u = { s with alc := u.alc, psr := { s.psr with dispatch := .sent, dispTimer := some 2000 } }) ∧
      let closes (p : Nat) (st : CloseStage) : Prop := (s.uns.closing.find? (·.pocket == p)).map (·.stage) = some st
      (∀ p, e.kind = .claim p → i = .ownClaimCompleted →
        ∃ t u, exec i s = .next t ∧ Follows false s (State.engine u) t ∧ gone u ∧ u = { s with
          alc := u.alc
          uns := { s.uns with
            active := s.uns.active.map fun c => if c = ⟨p, .queued⟩ then ⟨p, .held⟩ else c
            closing := if closes p .awaitClaim then s.uns.closing.filter (·.pocket != p) else s.uns.closing }
          blt := if s.entryAt p = .free ∧ p < s.cfg.pockets then { s.blt with map := s.blt.map.set p (.claimed s.own) }
            else s.blt }) ∧
      (∀ p m n, e.kind = .drop p m n → i = .ownDropCompleted →
        let loads : Prop := s.entryAt p ≠ .unknown ∧ p < s.cfg.pockets
        let ends : Prop := loads ∧ s.entryAt p ≠ .loaded s.own m n ∧
          (s.uns.active.find? (·.pocket == p)).map (·.stage) = some .queued
        ∃ t u, exec i s = .next t ∧ Follows false s (State.engine u) t ∧
          leaves (if ends then left.filter (·.kind != .claim p) else left) u ∧
          Told e.kind { s with
            alc := u.alc
            uns := { s.uns with active := if ends then s.uns.active.filter (·.pocket != p) else s.uns.active }
            blt := if loads then { s.blt with map := s.blt.map.set p (.loaded s.own m n) } else s.blt } u ∧
          ∀ q r more, closes p .awaitDrop → (s.uns.closing.find? (·.pocket == p)).bind (·.bound) = some q →
            s.uns.hold = r :: more → r.seq = q → u.uns.hold = more ∧ u.uns.dropped = s.uns.dropped + 1) ∧
      ∀ p, e.kind = .release p → i = .ownReleaseCompleted →
        let frees : Prop := s.entryAt p = .claimed s.own ∧ p < s.cfg.pockets
        let stage : Option ClaimStage := (s.uns.active.find? (·.pocket == p)).map (·.stage)
        ∃ t u, exec i s = .next t ∧ Follows false s (State.engine u) t ∧ gone u ∧ u = { s with
          alc := u.alc
          uns := { s.uns with
            active := if frees ∧ (stage = some .held ∨ stage = some .armed) then s.uns.active.filter (·.pocket != p)
              else s.uns.active
            closing := if closes p .awaitRelease then s.uns.closing.filter (·.pocket != p) else s.uns.closing }
          blt := if frees then { s.blt with map := s.blt.map.set p .free } else s.blt }

/-! ## Rounds and peers -/

/-- R42, R98, R101 to R106, R110, R111, R222: the shuttle's IDLE queues the DISPATCH of a waiting station; BUSY naming the station
makes it EN_ROUTE with an en-route record where there is room, and naming another ends its round, in SENT with a miss and its
notices; a DISPATCH still queued then leaves the transmit queue, at once or, in flight, at the end of its attempt (R89), and one
there already at IDLE is joined (R87); IDLE and BUSY naming another
end a trip that no DELIVERED has announced, a held early edge being taken as a manual bar. A stock-out report naming the
station holds the job's bar type for 60 s, and ends its round in SENT and its trip in EN_ROUTE; one naming another station, or
without a job, changes the view alone, and so does STOPPED. A shuttle telegram with a field out of its range, or of an unknown
kind, sets the age of the view alone; one too short reaches no owner. A peer's DISPATCH ends a round still queued; the dispatch
timer ends one that is SENT, with a miss. That BUSY naming the station clears the misses in EN_ROUTE too is the model's reading
(assumption log 27), and a timer's row acts whenever its timer runs (assumption log 25). -/
def Obligations.RoundsFollowTheShuttle : Prop :=
  ∀ s : State, s.running = true → s.alc.st ≠ .off → s.alc.waitGap = false →
    let good : State := { s with alc := { s.alc with ownObj := 0, mute := false } }
    let aged : State := { good with psr := { s.psr with shuttleAge := 0 } }
    let v (w : ShuttleState) : State := { aged with psr := { aged.psr with shuttle := w } }
    let ends (x u : State) : Prop :=
      let y : State := { x with psr := { x.psr with earlyEdge := none, dispatch := s.restState } }
      (s.psr.earlyEdge = none → u = y) ∧
      (s.psr.earlyEdge.isSome = true → s.bac.rack.length < 3 → u = { y with bac := { y.bac with
        rack := s.bac.rack ++ [⟨s.mpt.job.map (·.barType), .manual, none, false, false⟩] } }) ∧
      (s.psr.earlyEdge.isSome = true → 3 ≤ s.bac.rack.length → u = noticed y .rackOverfill none .shuttleNotice)
    let lost (w u : State) : Prop :=
      ends (noticed { w with bac := { s.bac with enRoute := none } } .deliveryMissing none .shuttleNotice) u
    let gone : List TxEntry := (s.alc.queue.filter fun e => e.kind ≠ .dispatch ∨ e.inFlight = true).map fun e =>
      if e.kind = .dispatch then { e with leaving := true } else e
    let leaves (w : State) : State :=
      { w with alc := { w.alc with queue := gone }, psr := { w.psr with dispatch := s.restState } }
    let missed (w : State) : State :=
      let y := noticed { w with psr := { w.psr with
        dispTimer := none, dispatch := s.restState, misses := min 255 (s.psr.misses + 1) } } .dispatchMiss none .shuttleNotice
      if s.psr.misses = 2 then noticed y .shuttleSilent none .shuttleNotice else y
    (∃ t u, exec .shuttleIdle s = .next t ∧ Follows true s (State.engine u) t ∧
      (s.psr.dispatch = .none ∨ s.psr.dispatch = .queued ∨ s.psr.dispatch = .sent → u = v .idle) ∧
      (s.psr.dispatch = .waiting → s.alc.st = .active → s.alc.queue = [] →
        u.psr.dispatch = .queued ∧ ∃ e, u.alc.queue = [e] ∧ e.kind = .dispatch) ∧
      (s.psr.dispatch = .waiting → s.alc.st = .active → s.alc.queue.length < 8 → (∀ e ∈ s.alc.queue, e.kind ≠ .dispatch) →
        u = { v .idle with
          alc := { (v .idle).alc with queue := u.alc.queue }, psr := { (v .idle).psr with dispatch := .queued } } ∧
        (∀ e ∈ s.alc.queue, e ∈ u.alc.queue) ∧ (∃ e ∈ u.alc.queue, e.kind = .dispatch ∧ e.fails = 0 ∧ e.inFlight = false) ∧
        u.alc.queue.length = s.alc.queue.length + 1) ∧
      (s.psr.dispatch = .waiting → s.alc.st = .active → s.alc.queue.length < 8 → (∃ e ∈ s.alc.queue, e.kind = .dispatch) →
        u = { v .idle with
          alc := { (v .idle).alc with queue := s.alc.queue.map fun e =>
            if e.kind = .dispatch then if e.inFlight then { e with again := true } else { e with fails := 0 } else e }
          psr := { (v .idle).psr with dispatch := .queued } }) ∧
      (s.psr.dispatch = .waiting → s.alc.st ≠ .active → u = v .idle) ∧
      (s.psr.dispatch = .enRoute → s.psr.delivery.isSome = true → u = v .idle) ∧
      (s.psr.dispatch = .enRoute → s.psr.delivery = none → lost (v .idle) u)) ∧
    (∀ st ty : Byte, ∀ r : Word16,
      let fits := (1 ≤ st.toNat ∧ st.toNat ≤ 62) ∧ 1 ≤ ty.toNat ∧ ty.toNat ≤ 15
      let w := v (.busy st.toNat ty.toNat r.toNat)
      (¬fits → ∃ t, exec (.shuttleBusy st ty r) s = .next t ∧ Follows false s aged.engine t) ∧
      (fits → ∃ t u, exec (.shuttleBusy st ty r) s = .next t ∧ Follows true s (State.engine u) t ∧
        (st.toNat = s.own → s.psr.dispatch = .enRoute → u = { w with psr := { w.psr with misses := 0 } }) ∧
        (st.toNat = s.own → s.psr.dispatch ≠ .enRoute →
          let x : State := { w with
            alc := { w.alc with queue := if s.psr.dispatch = .queued then gone else s.alc.queue }
            psr := { w.psr with dispTimer := none, misses := 0 } }
          (s.bac.enRoute = none → s.bac.rack.length < 3 → u = { x with
            bac := { s.bac with enRoute := some ⟨s.mpt.job.map (·.barType), .shuttle, none, false, false⟩ }
            psr := { x.psr with dispatch := .enRoute } }) ∧
          (s.bac.enRoute.isSome = true ∨ 3 ≤ s.bac.rack.length →
            u = noticed { x with psr := { x.psr with dispatch := s.restState } } .rackOverfill none .shuttleNotice)) ∧
        (st.toNat ≠ s.own → s.psr.dispatch = .none ∨ s.psr.dispatch = .waiting → u = w) ∧
        (st.toNat ≠ s.own → s.psr.dispatch = .enRoute → s.psr.delivery.isSome = true → u = w) ∧
        (st.toNat ≠ s.own → s.psr.dispatch = .enRoute → s.psr.delivery = none → lost w u) ∧
        (st.toNat ≠ s.own → s.psr.dispatch = .sent → u = missed w) ∧
        (st.toNat ≠ s.own → s.psr.dispatch = .queued → u = leaves w ∧ Withdrawn u.alc.queue))) ∧
    (∀ st : Byte, st.toNat ≤ 62 → st.toNat ≠ s.own ∨ s.mpt.job = none → ∃ t, exec (.shuttleFault 1 st) s = .next t ∧
      Follows true s (State.engine (v (.fault .laneEmpty st.toNat))) t) ∧
    (∀ st : Byte, ∀ j, st.toNat ≤ 62 → st.toNat = s.own → s.mpt.job = some j → 1 ≤ j.barType ∧ j.barType ≤ 15 →
      ∃ t u, exec (.shuttleFault 1 st) s = .next t ∧ Follows true s (State.engine u) t ∧ Raised u .stockOut ∧
        (∀ k : Fin 15, u.bac.learned[k] =
          if k.val + 1 = j.barType then { s.bac.learned[k] with hold := 60 } else s.bac.learned[k]) ∧
        let held (w : State) : State := noticed { w with bac := { s.bac with learned := u.bac.learned } } .stockOut none .stockOut
        let x := held (v (.fault .laneEmpty st.toNat))
        (s.psr.dispatch = .none ∨ s.psr.dispatch = .waiting ∨ s.psr.dispatch = .queued → u = x) ∧
        (s.psr.dispatch = .sent → u = { x with psr := { x.psr with dispTimer := none, dispatch := s.restState } }) ∧
        (s.psr.dispatch = .enRoute →
          ends { x with bac := { x.bac with enRoute := none }, psr := { x.psr with delivery := none } } u)) ∧
    (∀ st : Byte, st.toNat ≤ 62 → ∃ t, exec (.shuttleFault 2 st) s = .next t ∧
      Follows true s (State.engine (v (.fault .stopped st.toNat))) t) ∧
    (∀ k st : Byte, k ≠ 1 ∧ k ≠ 2 ∨ 62 < st.toNat → ∃ t, exec (.shuttleFault k st) s = .next t ∧
      Follows false s aged.engine t) ∧
    (∀ (c : BitVec 3) (p : List Byte), ∃ t, exec (.goodFrameNoOwner c 63 p) s = .next t ∧
      ((∃ k rest, c = 3 ∧ p = k :: rest ∧ (k = 0 ∨ 4 < k.toNat)) → Follows false s aged.engine t) ∧
      ((¬∃ k rest, c = 3 ∧ p = k :: rest ∧ (k = 0 ∨ 4 < k.toNat)) → s.own ≠ 63 → Follows false s good.engine t)) ∧
    (∀ a b ty n, a ≠ 0 → a ≠ 63 → a.toNat ≠ s.own → ∃ t u, exec (.dispatch a b ty n) s = .next t ∧
      let x : State := { good with psr := { s.psr with
        peers := s.psr.peers.map fun r => if r.addr = a.toNat then { r with age := 0 } else r } }
      Follows false s (State.engine u) t ∧ (s.psr.dispatch ≠ .queued → u = x) ∧
      (s.psr.dispatch = .queued → u = leaves x ∧ Withdrawn u.alc.queue)) ∧
    ∃ t u, exec .dispatchTimerExpiry s = .next t ∧ Follows false s (State.engine u) t ∧
      (s.psr.dispatch ≠ .sent ∨ s.psr.dispTimer = none → u = s) ∧
      (s.psr.dispatch = .sent → s.psr.dispTimer.isSome = true → u = missed s ∧
        u.flt.last = some (if s.psr.misses = 2 then .shuttleSilent else .dispatchMiss, none) ∧ Raised u .shuttleNotice)

/-- R63, R93, R95 to R97, R99, R111, R130: a PRESENCE in its ranges sets the record of its sender, and one out of them, or with no
room in the table, leaves the records as they are; each second the records age, a BUSY view and the stock-out holds count
down, a record that reaches age 4 is removed, which clears the overflow mark, and a PRESENCE is asked for; a hold that has run
out ends; the forecast is recomputed each second. With a changed table the size mismatch mark stands while a record has another
belt size, and its rise raises BELT_SIZE_MISMATCH with LINE_NOTICE (R130). A need change, a changed summary and a changed
PRESSED mark ask for a PRESENCE, and a need turned inactive in QUEUED takes the DISPATCH away: `Follows` says so of every
command (R62, R93, R94, R100). The forecast's figures, bands, need and starve condition are those of R9 and
R51, R55 to R62 and R64. What the rows of a record and of a hold do before their time is the model's choice (assumption log
9), and the rows of the one-second timers act whenever they are sent (assumption log 25). -/
def Obligations.PeersAndSecondTimers : Prop :=
  ∀ s : State, s.running = true →
    (∀ (a : LineAddr) (sum ds n status band ty : Byte) (trip : Word16), s.alc.st ≠ .off → s.alc.waitGap = false → a ≠ 0 →
      a ≠ 63 → a.toNat ≠ s.own → ∃ t u, exec (.presence a sum ds n status band ty trip) s = .next t ∧
        Follows false s (State.engine u) t ∧ u = { s with
          alc := { s.alc with ownObj := 0, mute := false }
          psr := { s.psr with peers := u.psr.peers, overflow := u.psr.overflow } } ∧
        (∀ r : Peer, r.addr ≠ a.toNat → (r ∈ u.psr.peers ↔ r ∈ s.psr.peers)) ∧
        let fits := (1 ≤ sum.toNat ∧ sum.toNat ≤ 6) ∧ (1 ≤ ds.toNat ∧ ds.toNat ≤ 127) ∧ (16 ≤ n.toNat ∧ n.toNat ≤ 128) ∧
          status.toNat % 8 ≤ 6 ∧ (status.getLsbD 7 = true →
            band.toNat ≤ 13 ∧ (1 ≤ ty.toNat ∧ ty.toNat ≤ 15) ∧ 1 ≤ trip.toNat ∧ trip.toNat ≤ 1023)
        (fits → (∃ r ∈ s.psr.peers, r.addr = a.toNat) ∨ s.psr.peers.length < 31 →
          u.psr.overflow = s.psr.overflow ∧ ∃ r ∈ u.psr.peers, r.addr = a.toNat ∧ r.age = 0 ∧ r.ds = ds.toNat ∧ r.n = n.toNat ∧
            r.fill = status.toNat % 8 ∧ r.pressed = status.getLsbD 4 ∧ r.summary.code = sum.toNat ∧
            r.need = if status.getLsbD 7 then some ⟨band.toNat, ty.toNat, trip.toNat⟩ else none) ∧
        (¬fits ∨ (∀ r ∈ s.psr.peers, r.addr ≠ a.toNat) ∧ 31 ≤ s.psr.peers.length →
          u.psr.peers.map Peer.key = s.psr.peers.map Peer.key) ∧
        (fits → (∀ r ∈ s.psr.peers, r.addr ≠ a.toNat) → 31 ≤ s.psr.peers.length → u.psr.overflow = true) ∧
        (fits → (∀ r ∈ s.psr.peers, r.addr ≠ a.toNat) ∧ s.psr.peers.length < 31 ∨
            (∃ r ∈ s.psr.peers, r.addr = a.toNat ∧ r.n ≠ n.toNat) →
          (t.blt.mismatch = true ↔ ∃ r ∈ u.psr.peers, r.n ≠ s.cfg.pockets) ∧
          (s.blt.mismatch = false → t.blt.mismatch = true →
            t.flt.last = some (.beltSizeMismatch, none) ∧ Raised t .lineNotice))) ∧
    (∃ t u, exec .psrOneSecondTimer s = .next t ∧ Follows false s (State.engine u) t ∧
      u = { s with
        alc := { s.alc with queue := u.alc.queue }, bac := { s.bac with learned := u.bac.learned }
        psr := { s.psr with
          peers := u.psr.peers, overflow := u.psr.overflow, second := some 1000
          shuttle := u.psr.shuttle, shuttleAge := u.psr.shuttleAge } } ∧
      u.psr.peers = ((s.psr.peers.filter fun r => decide (r.age < 3)).map fun r => { r with age := r.age + 1 }) ∧
      u.psr.overflow = (s.psr.overflow && s.psr.peers.all fun r => decide (r.age < 3)) ∧
      u.psr.shuttleAge = min 65535 (s.psr.shuttleAge + 1) ∧
      ((∀ st ty r, s.psr.shuttle ≠ .busy st ty r) → u.psr.shuttle = s.psr.shuttle) ∧
      (∀ st ty r, s.psr.shuttle = .busy st ty r → u.psr.shuttle = .busy st ty (r - 1)) ∧
      (∀ k : Fin 15, u.bac.learned[k] = { s.bac.learned[k] with hold := s.bac.learned[k].hold - 1 }) ∧
      (s.accepts = true → ∃ e ∈ u.alc.queue, e.kind = .presence) ∧
      ((∃ r ∈ s.psr.peers, 3 ≤ r.age) →
        (t.blt.mismatch = true ↔ ∃ r ∈ u.psr.peers, r.n ≠ s.cfg.pockets))) ∧
    (∀ a : LineAddr, ∃ t u, exec (.peerRecordExpiry a) s = .next t ∧ Follows false s (State.engine u) t ∧
      ((∀ r ∈ s.psr.peers, r.addr = a.toNat → r.age < 3) → u = s) ∧
      ((∃ r ∈ s.psr.peers, r.addr = a.toNat ∧ 3 ≤ r.age) →
        u = { s with psr := { s.psr with peers := s.psr.peers.filter (·.addr != a.toNat), overflow := false } })) ∧
    (∀ ty : Byte, 1 ≤ ty.toNat ∧ ty.toNat ≤ 15 → ∃ t u, exec (.stockOutHoldEnd ty) s = .next t ∧
      Follows false s (State.engine u) t ∧ (1 < (s.learnedOf ty.toNat).hold → u = s) ∧
      ((s.learnedOf ty.toNat).hold ≤ 1 → (u.learnedOf ty.toNat) = { s.learnedOf ty.toNat with hold := 0 } ∧
        u = { s with bac := { s.bac with learned := u.bac.learned } } ∧
        ∀ k : Fin 15, k.val + 1 ≠ ty.toNat → u.bac.learned[k] = s.bac.learned[k])) ∧
    (∃ t, exec .sfcOneSecondTimer s = .next t ∧
      Follows true s (State.engine { s with sfc := { s.sfc with second := some 1000 } }) t) ∧
    (s.mpt.job = none → s.needNow = ⟨false, none, none, none, none⟩ ∧ s.starveNow = false) ∧
    ∀ j, s.mpt.job = some j →
      let f := s.forecastOf j
      let c := j.lp + j.wc + j.af
      let len := if 3 ≤ (s.learnedOf j.barType).count then ((s.learnedOf j.barType).la4 + 2) / 4
        else (s.typeCfg j.barType).nominal
      let perBar := if j.lt + j.lg + c ≤ len then (len - j.lt - j.lg) / c else 0
      let inBar := match s.bac.current, s.fsq.pCut with
        | some _, some p => if (s.cfg.xFace : Int) - p < j.lg then 0 else ((s.cfg.xFace - p - j.lg) / (c : Int)).toNat
        | _, _ => 0
      let band (x : Int) (b : Nat) : Prop := b ≤ 13 ∧ (b ≠ 0 → 2 ^ (b + 2) ≤ x) ∧ (b < 13 → x < 2 ^ (b + 3))
      let cap (x : Nat) := min x 4294967295
      let work := match s.psr.shuttle with
        | .busy _ _ left => left
        | _ => 0
      let ahead (r : Peer) : Nat := match r.need with
        | some d => if d.band < f.baseBand ∨ d.band = f.baseBand ∧ r.addr < s.own then 2 * d.trip else 0
        | none => 0
      f.k = ((s.bac.rack ++ s.bac.enRoute.toList).filter fun r => !r.wrongType).length ∧
      f.stock = inBar + perBar * f.k ∧
      f.rest = (if j.q = 0 then 65536 else j.q) - s.mpt.lotCount ∧ f.usable = min f.stock f.rest ∧
      f.starveS = min 65535 (cap (cap (f.usable * ((s.sfc.ta8 + 4) / 8)) + cap (f.k * s.cfg.tc)) / 100) ∧
      f.baseSlack = (f.starveS : Int) - s.cfg.trip ∧ band f.baseSlack f.baseBand ∧
      f.qAhead = min 65535 (work + (s.psr.peers.map ahead).sum) ∧
      f.escSlack = f.baseSlack - f.qAhead ∧ band f.escSlack f.escBand ∧
      (s.needNow.active = true ↔ s.fsq.st ≠ .lotDone ∧ s.mpt.flags.getLsbD 1 = false ∧ s.flt.level ≠ .safe ∧
        s.bac.rack.length + s.bac.enRoute.toList.length < 3 ∧ (s.learnedOf j.barType).hold = 0 ∧
        (s.typeCfg j.barType).stock ≠ .barred ∧ f.stock < f.rest ∧ f.escBand ≤ s.cfg.horizon) ∧
      s.needNow.baseBand = some f.baseBand ∧ s.needNow.escBand = some f.escBand ∧
      s.needNow.barType = some j.barType ∧ s.needNow.trip = some s.cfg.trip ∧
      (s.starveNow = true ↔ f.escBand = 0 ∧ s.bac.rack = [])

end
end

