-- ==== Sys2Proof/Laws/State.lean ====
section
/-! SUPPORT. What each block updater leaves and what it writes, one lemma for each block, and the same for the shared
small operations: a raised event source, a notice, an accepted level. -/
namespace Sys2Proof.Machine

variable (s : State)

/-! ## One block written -/

@[simp] theorem State.onSig_sig (f : Sig → Sig) : (s.onSig f).sig = f s.sig := rfl
@[simp] theorem State.onSig_bac (f : Sig → Sig) : (s.onSig f).bac = s.bac := rfl
@[simp] theorem State.onSig_fsq (f : Sig → Sig) : (s.onSig f).fsq = s.fsq := rfl
@[simp] theorem State.onSig_sfc (f : Sig → Sig) : (s.onSig f).sfc = s.sfc := rfl
@[simp] theorem State.onSig_alc (f : Sig → Sig) : (s.onSig f).alc = s.alc := rfl
@[simp] theorem State.onSig_psr (f : Sig → Sig) : (s.onSig f).psr = s.psr := rfl
@[simp] theorem State.onSig_blt (f : Sig → Sig) : (s.onSig f).blt = s.blt := rfl
@[simp] theorem State.onSig_uns (f : Sig → Sig) : (s.onSig f).uns = s.uns := rfl
@[simp] theorem State.onSig_flt (f : Sig → Sig) : (s.onSig f).flt = s.flt := rfl
@[simp] theorem State.onSig_mpt (f : Sig → Sig) : (s.onSig f).mpt = s.mpt := rfl
@[simp] theorem State.onSig_stu (f : Sig → Sig) : (s.onSig f).stu = s.stu := rfl
@[simp] theorem State.onSig_samples (f : Sig → Sig) : (s.onSig f).samples = s.samples := rfl
@[simp] theorem State.onSig_bits (f : Sig → Sig) : (s.onSig f).bits = s.bits := rfl
@[simp] theorem State.onSig_pending (f : Sig → Sig) : (s.onSig f).pending = s.pending := rfl
@[simp] theorem State.onBac_sig (f : Bac → Bac) : (s.onBac f).sig = s.sig := rfl
@[simp] theorem State.onBac_bac (f : Bac → Bac) : (s.onBac f).bac = f s.bac := rfl
@[simp] theorem State.onBac_fsq (f : Bac → Bac) : (s.onBac f).fsq = s.fsq := rfl
@[simp] theorem State.onBac_sfc (f : Bac → Bac) : (s.onBac f).sfc = s.sfc := rfl
@[simp] theorem State.onBac_alc (f : Bac → Bac) : (s.onBac f).alc = s.alc := rfl
@[simp] theorem State.onBac_psr (f : Bac → Bac) : (s.onBac f).psr = s.psr := rfl
@[simp] theorem State.onBac_blt (f : Bac → Bac) : (s.onBac f).blt = s.blt := rfl
@[simp] theorem State.onBac_uns (f : Bac → Bac) : (s.onBac f).uns = s.uns := rfl
@[simp] theorem State.onBac_flt (f : Bac → Bac) : (s.onBac f).flt = s.flt := rfl
@[simp] theorem State.onBac_mpt (f : Bac → Bac) : (s.onBac f).mpt = s.mpt := rfl
@[simp] theorem State.onBac_stu (f : Bac → Bac) : (s.onBac f).stu = s.stu := rfl
@[simp] theorem State.onBac_samples (f : Bac → Bac) : (s.onBac f).samples = s.samples := rfl
@[simp] theorem State.onBac_bits (f : Bac → Bac) : (s.onBac f).bits = s.bits := rfl
@[simp] theorem State.onBac_pending (f : Bac → Bac) : (s.onBac f).pending = s.pending := rfl
@[simp] theorem State.onFsq_sig (f : Fsq → Fsq) : (s.onFsq f).sig = s.sig := rfl
@[simp] theorem State.onFsq_bac (f : Fsq → Fsq) : (s.onFsq f).bac = s.bac := rfl
@[simp] theorem State.onFsq_fsq (f : Fsq → Fsq) : (s.onFsq f).fsq = f s.fsq := rfl
@[simp] theorem State.onFsq_sfc (f : Fsq → Fsq) : (s.onFsq f).sfc = s.sfc := rfl
@[simp] theorem State.onFsq_alc (f : Fsq → Fsq) : (s.onFsq f).alc = s.alc := rfl
@[simp] theorem State.onFsq_psr (f : Fsq → Fsq) : (s.onFsq f).psr = s.psr := rfl
@[simp] theorem State.onFsq_blt (f : Fsq → Fsq) : (s.onFsq f).blt = s.blt := rfl
@[simp] theorem State.onFsq_uns (f : Fsq → Fsq) : (s.onFsq f).uns = s.uns := rfl
@[simp] theorem State.onFsq_flt (f : Fsq → Fsq) : (s.onFsq f).flt = s.flt := rfl
@[simp] theorem State.onFsq_mpt (f : Fsq → Fsq) : (s.onFsq f).mpt = s.mpt := rfl
@[simp] theorem State.onFsq_stu (f : Fsq → Fsq) : (s.onFsq f).stu = s.stu := rfl
@[simp] theorem State.onFsq_samples (f : Fsq → Fsq) : (s.onFsq f).samples = s.samples := rfl
@[simp] theorem State.onFsq_bits (f : Fsq → Fsq) : (s.onFsq f).bits = s.bits := rfl
@[simp] theorem State.onFsq_pending (f : Fsq → Fsq) : (s.onFsq f).pending = s.pending := rfl
@[simp] theorem State.onSfc_sig (f : Sfc → Sfc) : (s.onSfc f).sig = s.sig := rfl
@[simp] theorem State.onSfc_bac (f : Sfc → Sfc) : (s.onSfc f).bac = s.bac := rfl
@[simp] theorem State.onSfc_fsq (f : Sfc → Sfc) : (s.onSfc f).fsq = s.fsq := rfl
@[simp] theorem State.onSfc_sfc (f : Sfc → Sfc) : (s.onSfc f).sfc = f s.sfc := rfl
@[simp] theorem State.onSfc_alc (f : Sfc → Sfc) : (s.onSfc f).alc = s.alc := rfl
@[simp] theorem State.onSfc_psr (f : Sfc → Sfc) : (s.onSfc f).psr = s.psr := rfl
@[simp] theorem State.onSfc_blt (f : Sfc → Sfc) : (s.onSfc f).blt = s.blt := rfl
@[simp] theorem State.onSfc_uns (f : Sfc → Sfc) : (s.onSfc f).uns = s.uns := rfl
@[simp] theorem State.onSfc_flt (f : Sfc → Sfc) : (s.onSfc f).flt = s.flt := rfl
@[simp] theorem State.onSfc_mpt (f : Sfc → Sfc) : (s.onSfc f).mpt = s.mpt := rfl
@[simp] theorem State.onSfc_stu (f : Sfc → Sfc) : (s.onSfc f).stu = s.stu := rfl
@[simp] theorem State.onSfc_samples (f : Sfc → Sfc) : (s.onSfc f).samples = s.samples := rfl
@[simp] theorem State.onSfc_bits (f : Sfc → Sfc) : (s.onSfc f).bits = s.bits := rfl
@[simp] theorem State.onSfc_pending (f : Sfc → Sfc) : (s.onSfc f).pending = s.pending := rfl
@[simp] theorem State.onAlc_sig (f : Alc → Alc) : (s.onAlc f).sig = s.sig := rfl
@[simp] theorem State.onAlc_bac (f : Alc → Alc) : (s.onAlc f).bac = s.bac := rfl
@[simp] theorem State.onAlc_fsq (f : Alc → Alc) : (s.onAlc f).fsq = s.fsq := rfl
@[simp] theorem State.onAlc_sfc (f : Alc → Alc) : (s.onAlc f).sfc = s.sfc := rfl
@[simp] theorem State.onAlc_alc (f : Alc → Alc) : (s.onAlc f).alc = f s.alc := rfl
@[simp] theorem State.onAlc_psr (f : Alc → Alc) : (s.onAlc f).psr = s.psr := rfl
@[simp] theorem State.onAlc_blt (f : Alc → Alc) : (s.onAlc f).blt = s.blt := rfl
@[simp] theorem State.onAlc_uns (f : Alc → Alc) : (s.onAlc f).uns = s.uns := rfl
@[simp] theorem State.onAlc_flt (f : Alc → Alc) : (s.onAlc f).flt = s.flt := rfl
@[simp] theorem State.onAlc_mpt (f : Alc → Alc) : (s.onAlc f).mpt = s.mpt := rfl
@[simp] theorem State.onAlc_stu (f : Alc → Alc) : (s.onAlc f).stu = s.stu := rfl
@[simp] theorem State.onAlc_samples (f : Alc → Alc) : (s.onAlc f).samples = s.samples := rfl
@[simp] theorem State.onAlc_bits (f : Alc → Alc) : (s.onAlc f).bits = s.bits := rfl
@[simp] theorem State.onAlc_pending (f : Alc → Alc) : (s.onAlc f).pending = s.pending := rfl
@[simp] theorem State.onPsr_sig (f : Psr → Psr) : (s.onPsr f).sig = s.sig := rfl
@[simp] theorem State.onPsr_bac (f : Psr → Psr) : (s.onPsr f).bac = s.bac := rfl
@[simp] theorem State.onPsr_fsq (f : Psr → Psr) : (s.onPsr f).fsq = s.fsq := rfl
@[simp] theorem State.onPsr_sfc (f : Psr → Psr) : (s.onPsr f).sfc = s.sfc := rfl
@[simp] theorem State.onPsr_alc (f : Psr → Psr) : (s.onPsr f).alc = s.alc := rfl
@[simp] theorem State.onPsr_psr (f : Psr → Psr) : (s.onPsr f).psr = f s.psr := rfl
@[simp] theorem State.onPsr_blt (f : Psr → Psr) : (s.onPsr f).blt = s.blt := rfl
@[simp] theorem State.onPsr_uns (f : Psr → Psr) : (s.onPsr f).uns = s.uns := rfl
@[simp] theorem State.onPsr_flt (f : Psr → Psr) : (s.onPsr f).flt = s.flt := rfl
@[simp] theorem State.onPsr_mpt (f : Psr → Psr) : (s.onPsr f).mpt = s.mpt := rfl
@[simp] theorem State.onPsr_stu (f : Psr → Psr) : (s.onPsr f).stu = s.stu := rfl
@[simp] theorem State.onPsr_samples (f : Psr → Psr) : (s.onPsr f).samples = s.samples := rfl
@[simp] theorem State.onPsr_bits (f : Psr → Psr) : (s.onPsr f).bits = s.bits := rfl
@[simp] theorem State.onPsr_pending (f : Psr → Psr) : (s.onPsr f).pending = s.pending := rfl
@[simp] theorem State.onBlt_sig (f : Blt → Blt) : (s.onBlt f).sig = s.sig := rfl
@[simp] theorem State.onBlt_bac (f : Blt → Blt) : (s.onBlt f).bac = s.bac := rfl
@[simp] theorem State.onBlt_fsq (f : Blt → Blt) : (s.onBlt f).fsq = s.fsq := rfl
@[simp] theorem State.onBlt_sfc (f : Blt → Blt) : (s.onBlt f).sfc = s.sfc := rfl
@[simp] theorem State.onBlt_alc (f : Blt → Blt) : (s.onBlt f).alc = s.alc := rfl
@[simp] theorem State.onBlt_psr (f : Blt → Blt) : (s.onBlt f).psr = s.psr := rfl
@[simp] theorem State.onBlt_blt (f : Blt → Blt) : (s.onBlt f).blt = f s.blt := rfl
@[simp] theorem State.onBlt_uns (f : Blt → Blt) : (s.onBlt f).uns = s.uns := rfl
@[simp] theorem State.onBlt_flt (f : Blt → Blt) : (s.onBlt f).flt = s.flt := rfl
@[simp] theorem State.onBlt_mpt (f : Blt → Blt) : (s.onBlt f).mpt = s.mpt := rfl
@[simp] theorem State.onBlt_stu (f : Blt → Blt) : (s.onBlt f).stu = s.stu := rfl
@[simp] theorem State.onBlt_samples (f : Blt → Blt) : (s.onBlt f).samples = s.samples := rfl
@[simp] theorem State.onBlt_bits (f : Blt → Blt) : (s.onBlt f).bits = s.bits := rfl
@[simp] theorem State.onBlt_pending (f : Blt → Blt) : (s.onBlt f).pending = s.pending := rfl
@[simp] theorem State.onUns_sig (f : Uns → Uns) : (s.onUns f).sig = s.sig := rfl
@[simp] theorem State.onUns_bac (f : Uns → Uns) : (s.onUns f).bac = s.bac := rfl
@[simp] theorem State.onUns_fsq (f : Uns → Uns) : (s.onUns f).fsq = s.fsq := rfl
@[simp] theorem State.onUns_sfc (f : Uns → Uns) : (s.onUns f).sfc = s.sfc := rfl
@[simp] theorem State.onUns_alc (f : Uns → Uns) : (s.onUns f).alc = s.alc := rfl
@[simp] theorem State.onUns_psr (f : Uns → Uns) : (s.onUns f).psr = s.psr := rfl
@[simp] theorem State.onUns_blt (f : Uns → Uns) : (s.onUns f).blt = s.blt := rfl
@[simp] theorem State.onUns_uns (f : Uns → Uns) : (s.onUns f).uns = f s.uns := rfl
@[simp] theorem State.onUns_flt (f : Uns → Uns) : (s.onUns f).flt = s.flt := rfl
@[simp] theorem State.onUns_mpt (f : Uns → Uns) : (s.onUns f).mpt = s.mpt := rfl
@[simp] theorem State.onUns_stu (f : Uns → Uns) : (s.onUns f).stu = s.stu := rfl
@[simp] theorem State.onUns_samples (f : Uns → Uns) : (s.onUns f).samples = s.samples := rfl
@[simp] theorem State.onUns_bits (f : Uns → Uns) : (s.onUns f).bits = s.bits := rfl
@[simp] theorem State.onUns_pending (f : Uns → Uns) : (s.onUns f).pending = s.pending := rfl
@[simp] theorem State.onFlt_sig (f : Flt → Flt) : (s.onFlt f).sig = s.sig := rfl
@[simp] theorem State.onFlt_bac (f : Flt → Flt) : (s.onFlt f).bac = s.bac := rfl
@[simp] theorem State.onFlt_fsq (f : Flt → Flt) : (s.onFlt f).fsq = s.fsq := rfl
@[simp] theorem State.onFlt_sfc (f : Flt → Flt) : (s.onFlt f).sfc = s.sfc := rfl
@[simp] theorem State.onFlt_alc (f : Flt → Flt) : (s.onFlt f).alc = s.alc := rfl
@[simp] theorem State.onFlt_psr (f : Flt → Flt) : (s.onFlt f).psr = s.psr := rfl
@[simp] theorem State.onFlt_blt (f : Flt → Flt) : (s.onFlt f).blt = s.blt := rfl
@[simp] theorem State.onFlt_uns (f : Flt → Flt) : (s.onFlt f).uns = s.uns := rfl
@[simp] theorem State.onFlt_flt (f : Flt → Flt) : (s.onFlt f).flt = f s.flt := rfl
@[simp] theorem State.onFlt_mpt (f : Flt → Flt) : (s.onFlt f).mpt = s.mpt := rfl
@[simp] theorem State.onFlt_stu (f : Flt → Flt) : (s.onFlt f).stu = s.stu := rfl
@[simp] theorem State.onFlt_samples (f : Flt → Flt) : (s.onFlt f).samples = s.samples := rfl
@[simp] theorem State.onFlt_bits (f : Flt → Flt) : (s.onFlt f).bits = s.bits := rfl
@[simp] theorem State.onFlt_pending (f : Flt → Flt) : (s.onFlt f).pending = s.pending := rfl
@[simp] theorem State.onMpt_sig (f : Mpt → Mpt) : (s.onMpt f).sig = s.sig := rfl
@[simp] theorem State.onMpt_bac (f : Mpt → Mpt) : (s.onMpt f).bac = s.bac := rfl
@[simp] theorem State.onMpt_fsq (f : Mpt → Mpt) : (s.onMpt f).fsq = s.fsq := rfl
@[simp] theorem State.onMpt_sfc (f : Mpt → Mpt) : (s.onMpt f).sfc = s.sfc := rfl
@[simp] theorem State.onMpt_alc (f : Mpt → Mpt) : (s.onMpt f).alc = s.alc := rfl
@[simp] theorem State.onMpt_psr (f : Mpt → Mpt) : (s.onMpt f).psr = s.psr := rfl
@[simp] theorem State.onMpt_blt (f : Mpt → Mpt) : (s.onMpt f).blt = s.blt := rfl
@[simp] theorem State.onMpt_uns (f : Mpt → Mpt) : (s.onMpt f).uns = s.uns := rfl
@[simp] theorem State.onMpt_flt (f : Mpt → Mpt) : (s.onMpt f).flt = s.flt := rfl
@[simp] theorem State.onMpt_mpt (f : Mpt → Mpt) : (s.onMpt f).mpt = f s.mpt := rfl
@[simp] theorem State.onMpt_stu (f : Mpt → Mpt) : (s.onMpt f).stu = s.stu := rfl
@[simp] theorem State.onMpt_samples (f : Mpt → Mpt) : (s.onMpt f).samples = s.samples := rfl
@[simp] theorem State.onMpt_bits (f : Mpt → Mpt) : (s.onMpt f).bits = s.bits := rfl
@[simp] theorem State.onMpt_pending (f : Mpt → Mpt) : (s.onMpt f).pending = s.pending := rfl
@[simp] theorem State.onStu_sig (f : Stu → Stu) : (s.onStu f).sig = s.sig := rfl
@[simp] theorem State.onStu_bac (f : Stu → Stu) : (s.onStu f).bac = s.bac := rfl
@[simp] theorem State.onStu_fsq (f : Stu → Stu) : (s.onStu f).fsq = s.fsq := rfl
@[simp] theorem State.onStu_sfc (f : Stu → Stu) : (s.onStu f).sfc = s.sfc := rfl
@[simp] theorem State.onStu_alc (f : Stu → Stu) : (s.onStu f).alc = s.alc := rfl
@[simp] theorem State.onStu_psr (f : Stu → Stu) : (s.onStu f).psr = s.psr := rfl
@[simp] theorem State.onStu_blt (f : Stu → Stu) : (s.onStu f).blt = s.blt := rfl
@[simp] theorem State.onStu_uns (f : Stu → Stu) : (s.onStu f).uns = s.uns := rfl
@[simp] theorem State.onStu_flt (f : Stu → Stu) : (s.onStu f).flt = s.flt := rfl
@[simp] theorem State.onStu_mpt (f : Stu → Stu) : (s.onStu f).mpt = s.mpt := rfl
@[simp] theorem State.onStu_stu (f : Stu → Stu) : (s.onStu f).stu = f s.stu := rfl
@[simp] theorem State.onStu_samples (f : Stu → Stu) : (s.onStu f).samples = s.samples := rfl
@[simp] theorem State.onStu_bits (f : Stu → Stu) : (s.onStu f).bits = s.bits := rfl
@[simp] theorem State.onStu_pending (f : Stu → Stu) : (s.onStu f).pending = s.pending := rfl

/-! ## The views of one block -/

@[simp] theorem State.onSig_cfg (f : Sig → Sig) : (s.onSig f).cfg = s.cfg := rfl
@[simp] theorem State.onSig_own (f : Sig → Sig) : (s.onSig f).own = s.own := rfl
@[simp] theorem State.onSig_running (f : Sig → Sig) : (s.onSig f).running = s.running := rfl
@[simp] theorem State.onSig_inSafe (f : Sig → Sig) : (s.onSig f).inSafe = s.inSafe := rfl
@[simp] theorem State.onSig_feedHeld (f : Sig → Sig) : (s.onSig f).feedHeld = s.feedHeld := rfl
@[simp] theorem State.onBac_cfg (f : Bac → Bac) : (s.onBac f).cfg = s.cfg := rfl
@[simp] theorem State.onBac_own (f : Bac → Bac) : (s.onBac f).own = s.own := rfl
@[simp] theorem State.onBac_running (f : Bac → Bac) : (s.onBac f).running = s.running := rfl
@[simp] theorem State.onBac_inSafe (f : Bac → Bac) : (s.onBac f).inSafe = s.inSafe := rfl
@[simp] theorem State.onBac_inp (f : Bac → Bac) (i : Input) : (s.onBac f).inp i = s.inp i := rfl
@[simp] theorem State.onBac_feedHeld (f : Bac → Bac) : (s.onBac f).feedHeld = s.feedHeld := rfl
@[simp] theorem State.onFsq_cfg (f : Fsq → Fsq) : (s.onFsq f).cfg = s.cfg := rfl
@[simp] theorem State.onFsq_own (f : Fsq → Fsq) : (s.onFsq f).own = s.own := rfl
@[simp] theorem State.onFsq_running (f : Fsq → Fsq) : (s.onFsq f).running = s.running := rfl
@[simp] theorem State.onFsq_inSafe (f : Fsq → Fsq) : (s.onFsq f).inSafe = s.inSafe := rfl
@[simp] theorem State.onFsq_inp (f : Fsq → Fsq) (i : Input) : (s.onFsq f).inp i = s.inp i := rfl
@[simp] theorem State.onSfc_cfg (f : Sfc → Sfc) : (s.onSfc f).cfg = s.cfg := rfl
@[simp] theorem State.onSfc_own (f : Sfc → Sfc) : (s.onSfc f).own = s.own := rfl
@[simp] theorem State.onSfc_running (f : Sfc → Sfc) : (s.onSfc f).running = s.running := rfl
@[simp] theorem State.onSfc_inSafe (f : Sfc → Sfc) : (s.onSfc f).inSafe = s.inSafe := rfl
@[simp] theorem State.onSfc_inp (f : Sfc → Sfc) (i : Input) : (s.onSfc f).inp i = s.inp i := rfl
@[simp] theorem State.onSfc_feedHeld (f : Sfc → Sfc) : (s.onSfc f).feedHeld = s.feedHeld := rfl
@[simp] theorem State.onAlc_cfg (f : Alc → Alc) : (s.onAlc f).cfg = s.cfg := rfl
@[simp] theorem State.onAlc_own (f : Alc → Alc) : (s.onAlc f).own = s.own := rfl
@[simp] theorem State.onAlc_running (f : Alc → Alc) : (s.onAlc f).running = s.running := rfl
@[simp] theorem State.onAlc_inSafe (f : Alc → Alc) : (s.onAlc f).inSafe = s.inSafe := rfl
@[simp] theorem State.onAlc_inp (f : Alc → Alc) (i : Input) : (s.onAlc f).inp i = s.inp i := rfl
@[simp] theorem State.onAlc_feedHeld (f : Alc → Alc) : (s.onAlc f).feedHeld = s.feedHeld := rfl
@[simp] theorem State.onPsr_cfg (f : Psr → Psr) : (s.onPsr f).cfg = s.cfg := rfl
@[simp] theorem State.onPsr_own (f : Psr → Psr) : (s.onPsr f).own = s.own := rfl
@[simp] theorem State.onPsr_running (f : Psr → Psr) : (s.onPsr f).running = s.running := rfl
@[simp] theorem State.onPsr_inSafe (f : Psr → Psr) : (s.onPsr f).inSafe = s.inSafe := rfl
@[simp] theorem State.onPsr_inp (f : Psr → Psr) (i : Input) : (s.onPsr f).inp i = s.inp i := rfl
@[simp] theorem State.onPsr_feedHeld (f : Psr → Psr) : (s.onPsr f).feedHeld = s.feedHeld := rfl
@[simp] theorem State.onBlt_cfg (f : Blt → Blt) : (s.onBlt f).cfg = s.cfg := rfl
@[simp] theorem State.onBlt_own (f : Blt → Blt) : (s.onBlt f).own = s.own := rfl
@[simp] theorem State.onBlt_running (f : Blt → Blt) : (s.onBlt f).running = s.running := rfl
@[simp] theorem State.onBlt_inSafe (f : Blt → Blt) : (s.onBlt f).inSafe = s.inSafe := rfl
@[simp] theorem State.onBlt_inp (f : Blt → Blt) (i : Input) : (s.onBlt f).inp i = s.inp i := rfl
@[simp] theorem State.onBlt_feedHeld (f : Blt → Blt) : (s.onBlt f).feedHeld = s.feedHeld := rfl
@[simp] theorem State.onUns_cfg (f : Uns → Uns) : (s.onUns f).cfg = s.cfg := rfl
@[simp] theorem State.onUns_own (f : Uns → Uns) : (s.onUns f).own = s.own := rfl
@[simp] theorem State.onUns_running (f : Uns → Uns) : (s.onUns f).running = s.running := rfl
@[simp] theorem State.onUns_inSafe (f : Uns → Uns) : (s.onUns f).inSafe = s.inSafe := rfl
@[simp] theorem State.onUns_inp (f : Uns → Uns) (i : Input) : (s.onUns f).inp i = s.inp i := rfl
@[simp] theorem State.onUns_feedHeld (f : Uns → Uns) : (s.onUns f).feedHeld = s.feedHeld := rfl
@[simp] theorem State.onFlt_cfg (f : Flt → Flt) : (s.onFlt f).cfg = s.cfg := rfl
@[simp] theorem State.onFlt_own (f : Flt → Flt) : (s.onFlt f).own = s.own := rfl
@[simp] theorem State.onFlt_running (f : Flt → Flt) : (s.onFlt f).running = s.running := rfl
@[simp] theorem State.onFlt_inp (f : Flt → Flt) (i : Input) : (s.onFlt f).inp i = s.inp i := rfl
@[simp] theorem State.onMpt_cfg (f : Mpt → Mpt) : (s.onMpt f).cfg = s.cfg := rfl
@[simp] theorem State.onMpt_own (f : Mpt → Mpt) : (s.onMpt f).own = s.own := rfl
@[simp] theorem State.onMpt_running (f : Mpt → Mpt) : (s.onMpt f).running = s.running := rfl
@[simp] theorem State.onMpt_inSafe (f : Mpt → Mpt) : (s.onMpt f).inSafe = s.inSafe := rfl
@[simp] theorem State.onMpt_inp (f : Mpt → Mpt) (i : Input) : (s.onMpt f).inp i = s.inp i := rfl
@[simp] theorem State.onMpt_feedHeld (f : Mpt → Mpt) : (s.onMpt f).feedHeld = s.feedHeld := rfl
@[simp] theorem State.onStu_inSafe (f : Stu → Stu) : (s.onStu f).inSafe = s.inSafe := rfl
@[simp] theorem State.onStu_inp (f : Stu → Stu) (i : Input) : (s.onStu f).inp i = s.inp i := rfl
@[simp] theorem State.onStu_feedHeld (f : Stu → Stu) : (s.onStu f).feedHeld = s.feedHeld := rfl

/-! ## Raised sources -/

@[simp] theorem State.raise_sig (e : EventSrc) : (s.raise e).sig = s.sig := rfl
@[simp] theorem State.raise_bac (e : EventSrc) : (s.raise e).bac = s.bac := rfl
@[simp] theorem State.raise_fsq (e : EventSrc) : (s.raise e).fsq = s.fsq := rfl
@[simp] theorem State.raise_sfc (e : EventSrc) : (s.raise e).sfc = s.sfc := rfl
@[simp] theorem State.raise_alc (e : EventSrc) : (s.raise e).alc = s.alc := rfl
@[simp] theorem State.raise_psr (e : EventSrc) : (s.raise e).psr = s.psr := rfl
@[simp] theorem State.raise_blt (e : EventSrc) : (s.raise e).blt = s.blt := rfl
@[simp] theorem State.raise_uns (e : EventSrc) : (s.raise e).uns = s.uns := rfl
@[simp] theorem State.raise_flt (e : EventSrc) : (s.raise e).flt = s.flt := rfl
@[simp] theorem State.raise_stu (e : EventSrc) : (s.raise e).stu = s.stu := rfl
@[simp] theorem State.raise_samples (e : EventSrc) : (s.raise e).samples = s.samples := rfl
@[simp] theorem State.raise_bits (e : EventSrc) : (s.raise e).bits = s.bits := rfl
@[simp] theorem State.raise_pending (e : EventSrc) : (s.raise e).pending = s.pending := rfl
@[simp] theorem State.raise_job (e : EventSrc) : (s.raise e).mpt.job = s.mpt.job := rfl
@[simp] theorem State.raise_lotCount (e : EventSrc) : (s.raise e).mpt.lotCount = s.mpt.lotCount := rfl
@[simp] theorem State.raise_lotNo (e : EventSrc) : (s.raise e).mpt.lotNo = s.mpt.lotNo := rfl
@[simp] theorem State.raise_flags (e : EventSrc) : (s.raise e).mpt.flags = s.mpt.flags := rfl
@[simp] theorem State.raise_threshold (e : EventSrc) : (s.raise e).mpt.threshold = s.mpt.threshold := rfl
@[simp] theorem State.raise_buffer (e : EventSrc) : (s.raise e).mpt.buffer = s.mpt.buffer := rfl
@[simp] theorem State.raise_selected (e : EventSrc) : (s.raise e).mpt.selected = s.mpt.selected := rfl
@[simp] theorem State.raise_miso (e : EventSrc) : (s.raise e).mpt.miso = s.mpt.miso := rfl
@[simp] theorem State.raise_cfg (e : EventSrc) : (s.raise e).cfg = s.cfg := rfl
@[simp] theorem State.raise_own (e : EventSrc) : (s.raise e).own = s.own := rfl
@[simp] theorem State.raise_running (e : EventSrc) : (s.raise e).running = s.running := rfl
@[simp] theorem State.raise_inSafe (e : EventSrc) : (s.raise e).inSafe = s.inSafe := rfl
@[simp] theorem State.raise_feedHeld (e : EventSrc) : (s.raise e).feedHeld = s.feedHeld := rfl
@[simp] theorem State.raise_inp (e : EventSrc) (i : Input) : (s.raise e).inp i = s.inp i := rfl

/-! ## Notices -/

@[simp] theorem State.notice_sig (k : FaultKind) (c : Option Nat) : (s.notice k c).sig = s.sig := by
  unfold State.notice; split <;> rfl
@[simp] theorem State.notice_bac (k : FaultKind) (c : Option Nat) : (s.notice k c).bac = s.bac := by
  unfold State.notice; split <;> rfl
@[simp] theorem State.notice_fsq (k : FaultKind) (c : Option Nat) : (s.notice k c).fsq = s.fsq := by
  unfold State.notice; split <;> rfl
@[simp] theorem State.notice_sfc (k : FaultKind) (c : Option Nat) : (s.notice k c).sfc = s.sfc := by
  unfold State.notice; split <;> rfl
@[simp] theorem State.notice_alc (k : FaultKind) (c : Option Nat) : (s.notice k c).alc = s.alc := by
  unfold State.notice; split <;> rfl
@[simp] theorem State.notice_psr (k : FaultKind) (c : Option Nat) : (s.notice k c).psr = s.psr := by
  unfold State.notice; split <;> rfl
@[simp] theorem State.notice_blt (k : FaultKind) (c : Option Nat) : (s.notice k c).blt = s.blt := by
  unfold State.notice; split <;> rfl
@[simp] theorem State.notice_uns (k : FaultKind) (c : Option Nat) : (s.notice k c).uns = s.uns := by
  unfold State.notice; split <;> rfl
@[simp] theorem State.notice_stu (k : FaultKind) (c : Option Nat) : (s.notice k c).stu = s.stu := by
  unfold State.notice; split <;> rfl
@[simp] theorem State.notice_samples (k : FaultKind) (c : Option Nat) : (s.notice k c).samples = s.samples := by
  unfold State.notice; split <;> rfl
@[simp] theorem State.notice_bits (k : FaultKind) (c : Option Nat) : (s.notice k c).bits = s.bits := by
  unfold State.notice; split <;> rfl
@[simp] theorem State.notice_pending (k : FaultKind) (c : Option Nat) : (s.notice k c).pending = s.pending := by
  unfold State.notice; split <;> rfl
@[simp] theorem State.notice_job (k : FaultKind) (c : Option Nat) : (s.notice k c).mpt.job = s.mpt.job := by
  unfold State.notice; split <;> rfl
@[simp] theorem State.notice_lotCount (k : FaultKind) (c : Option Nat) : (s.notice k c).mpt.lotCount = s.mpt.lotCount := by
  unfold State.notice; split <;> rfl
@[simp] theorem State.notice_lotNo (k : FaultKind) (c : Option Nat) : (s.notice k c).mpt.lotNo = s.mpt.lotNo := by
  unfold State.notice; split <;> rfl
@[simp] theorem State.notice_flags (k : FaultKind) (c : Option Nat) : (s.notice k c).mpt.flags = s.mpt.flags := by
  unfold State.notice; split <;> rfl
@[simp] theorem State.notice_threshold (k : FaultKind) (c : Option Nat) : (s.notice k c).mpt.threshold = s.mpt.threshold := by
  unfold State.notice; split <;> rfl
@[simp] theorem State.notice_buffer (k : FaultKind) (c : Option Nat) : (s.notice k c).mpt.buffer = s.mpt.buffer := by
  unfold State.notice; split <;> rfl
@[simp] theorem State.notice_selected (k : FaultKind) (c : Option Nat) : (s.notice k c).mpt.selected = s.mpt.selected := by
  unfold State.notice; split <;> rfl
@[simp] theorem State.notice_miso (k : FaultKind) (c : Option Nat) : (s.notice k c).mpt.miso = s.mpt.miso := by
  unfold State.notice; split <;> rfl
/-- R160: what a notice does to the fault unit. -/
@[simp] theorem State.notice_flt (k : FaultKind) (c : Option Nat) :
    (s.notice k c).flt = { s.flt with last := some (k, c), notices := s.flt.notices + 1 } := by
  unfold State.notice; split <;> rfl

/-! ## Accepted levels -/

@[simp] theorem State.setLevel_bac (i : Input) (b : Bool) : (s.setLevel i b).bac = s.bac := by
  unfold State.setLevel; split <;> rfl
@[simp] theorem State.setLevel_fsq (i : Input) (b : Bool) : (s.setLevel i b).fsq = s.fsq := by
  unfold State.setLevel; split <;> rfl
@[simp] theorem State.setLevel_sfc (i : Input) (b : Bool) : (s.setLevel i b).sfc = s.sfc := by
  unfold State.setLevel; split <;> rfl
@[simp] theorem State.setLevel_alc (i : Input) (b : Bool) : (s.setLevel i b).alc = s.alc := by
  unfold State.setLevel; split <;> rfl
@[simp] theorem State.setLevel_psr (i : Input) (b : Bool) : (s.setLevel i b).psr = s.psr := by
  unfold State.setLevel; split <;> rfl
@[simp] theorem State.setLevel_blt (i : Input) (b : Bool) : (s.setLevel i b).blt = s.blt := by
  unfold State.setLevel; split <;> rfl
@[simp] theorem State.setLevel_uns (i : Input) (b : Bool) : (s.setLevel i b).uns = s.uns := by
  unfold State.setLevel; split <;> rfl
@[simp] theorem State.setLevel_flt (i : Input) (b : Bool) : (s.setLevel i b).flt = s.flt := by
  unfold State.setLevel; split <;> rfl
@[simp] theorem State.setLevel_mpt (i : Input) (b : Bool) : (s.setLevel i b).mpt = s.mpt := by
  unfold State.setLevel; split <;> rfl
@[simp] theorem State.setLevel_stu (i : Input) (b : Bool) : (s.setLevel i b).stu = s.stu := by
  unfold State.setLevel; split <;> rfl
@[simp] theorem State.setLevel_samples (i : Input) (b : Bool) : (s.setLevel i b).samples = s.samples := by
  unfold State.setLevel; split <;> rfl
@[simp] theorem State.setLevel_bits (i : Input) (b : Bool) : (s.setLevel i b).bits = s.bits := by
  unfold State.setLevel; split <;> rfl
@[simp] theorem State.setLevel_pending (i : Input) (b : Bool) : (s.setLevel i b).pending = s.pending := by
  unfold State.setLevel; split <;> rfl
@[simp] theorem State.setLevel_cutLatch (i : Input) (b : Bool) : (s.setLevel i b).sig.cutLatch = s.sig.cutLatch := by
  unfold State.setLevel; split <;> rfl
@[simp] theorem State.setLevel_spindleLatch (i : Input) (b : Bool) : (s.setLevel i b).sig.spindleLatch = s.sig.spindleLatch := by
  unfold State.setLevel; split <;> rfl
@[simp] theorem State.setLevel_remnantLatch (i : Input) (b : Bool) : (s.setLevel i b).sig.remnantLatch = s.sig.remnantLatch := by
  unfold State.setLevel; split <;> rfl
@[simp] theorem State.setLevel_rackLatch (i : Input) (b : Bool) : (s.setLevel i b).sig.rackLatch = s.sig.rackLatch := by
  unfold State.setLevel; split <;> rfl
@[simp] theorem State.setLevel_trayLatch (i : Input) (b : Bool) : (s.setLevel i b).sig.trayLatch = s.sig.trayLatch := by
  unfold State.setLevel; split <;> rfl
@[simp] theorem State.setLevel_binLatch (i : Input) (b : Bool) : (s.setLevel i b).sig.binLatch = s.sig.binLatch := by
  unfold State.setLevel; split <;> rfl
@[simp] theorem State.setLevel_dropLatch (i : Input) (b : Bool) : (s.setLevel i b).sig.dropLatch = s.sig.dropLatch := by
  unfold State.setLevel; split <;> rfl
@[simp] theorem State.setLevel_indexLatch (i : Input) (b : Bool) : (s.setLevel i b).sig.indexLatch = s.sig.indexLatch := by
  unfold State.setLevel; split <;> rfl
@[simp] theorem State.setLevel_homeLatch (i : Input) (b : Bool) : (s.setLevel i b).sig.homeLatch = s.sig.homeLatch := by
  unfold State.setLevel; split <;> rfl
@[simp] theorem State.setLevel_phase (i : Input) (b : Bool) : (s.setLevel i b).sig.phase = s.sig.phase := by
  unfold State.setLevel; split <;> rfl
@[simp] theorem State.setLevel_skips (i : Input) (b : Bool) : (s.setLevel i b).sig.skips = s.sig.skips := by
  unfold State.setLevel; split <;> rfl
@[simp] theorem State.setLevel_zeroArmed (i : Input) (b : Bool) : (s.setLevel i b).sig.zeroArmed = s.sig.zeroArmed := by
  unfold State.setLevel; split <;> rfl
@[simp] theorem State.setLevel_zeroDue (i : Input) (b : Bool) : (s.setLevel i b).sig.zeroDue = s.sig.zeroDue := by
  unfold State.setLevel; split <;> rfl
@[simp] theorem State.setLevel_outPins (i : Input) (b : Bool) : (s.setLevel i b).sig.outPins = s.sig.outPins := by
  unfold State.setLevel; split <;> rfl
@[simp] theorem State.setLevel_settling (i : Input) (b : Bool) : (s.setLevel i b).sig.settling = s.sig.settling := by
  unfold State.setLevel; split <;> rfl
@[simp] theorem State.setLevel_cfg (i : Input) (b : Bool) : (s.setLevel i b).cfg = s.cfg := by
  simp [State.cfg]
@[simp] theorem State.setLevel_own (i : Input) (b : Bool) : (s.setLevel i b).own = s.own := by
  simp [State.own]
@[simp] theorem State.setLevel_running (i : Input) (b : Bool) : (s.setLevel i b).running = s.running := by
  simp [State.running]
@[simp] theorem State.setLevel_inSafe (i : Input) (b : Bool) : (s.setLevel i b).inSafe = s.inSafe := by
  simp [State.inSafe]
@[simp] theorem State.setLevel_feedHeld (i : Input) (b : Bool) : (s.setLevel i b).feedHeld = s.feedHeld := by
  simp [State.feedHeld]

/-- An entry of a changed table. -/
@[simp] theorem getElem_mapTable {α β : Type} {n : Nat} (f : α → β) (v : Vector α n) (i : Nat) (h : i < n) :
    (mapTable f v)[i] = f v[i] := by simp [mapTable]

/-- No two inputs share a place. -/
theorem Input.idx_injective (i j : Input) (h : i.idx = j.idx) : i = j := by
  revert h; cases i <;> cases j <;> decide

/-- The level an input was given is the level its owner reads; the other inputs read as before. -/
theorem State.setLevel_inp (i j : Input) (b : Bool) : (s.setLevel i b).inp j = if j = i then b else s.inp j := by
  unfold State.setLevel
  split
  · rename_i ha
    by_cases h : j = i
    · subst h; rw [if_pos rfl]; show (s.sig.filters[j.idx]).acc.getD false = b; rw [ha]; rfl
    · simp [h]
  · by_cases h : j = i
    · subst h; simp [State.inp]
    · have h' : (i.idx : Nat) ≠ (j.idx : Nat) := fun e => h (Input.idx_injective i j (Fin.ext e)).symm
      simp [State.inp, h, Vector.getElem_set_ne _ _ h']

/-- A level the filter holds already changes nothing. -/
theorem State.setLevel_same (i : Input) (b : Bool) (h : (s.sig.filters[i.idx]).acc = some b) : s.setLevel i b = s := by
  unfold State.setLevel; rw [if_pos h]

/-! ## Conditions -/

@[simp] theorem State.onlyIf_true (f : State → State) : s.onlyIf true f = f s := rfl
@[simp] theorem State.onlyIf_false (f : State → State) : s.onlyIf false f = s := rfl

/-- Everything `onlyIf` can do. -/
theorem State.onlyIf_eq (c : Bool) (f : State → State) : s.onlyIf c f = if c then f s else s := by
  cases c <;> rfl

/-- A function that both branches agree on. -/
theorem State.apply_onlyIf {α : Sort _} (g : State → α) (c : Bool) (f : State → State) :
    g (s.onlyIf c f) = if c then g (f s) else g s := by
  cases c <;> rfl

end Sys2Proof.Machine
end

