-- ==== Sys2Proof/Laws/Follow.lean ====
section
/-! SUPPORT. What follows a command, said once: every part of `conclude` keeps `base` or `peerBase`, and `conclude` as a whole
is `Follows`. -/
namespace Sys2Proof.Machine

open Sys2Proof.Safety

/-! ## A raised source and a notice -/

theorem State.raise_source (s : State) (e : EventSrc) (i : Fin 16) :
    (s.raise e).mpt.sources[i] =
      if i = e.idx then
        { s.mpt.sources[i] with pending := s.mpt.sources[i].pending || 1 ≤ s.mpt.sources[i].priority }
      else s.mpt.sources[i] := by
  by_cases h : i = e.idx
  · subst h; simp [State.raise]
  · have h' : (e.idx : Nat) ≠ (i : Nat) := fun x => h (Fin.ext x).symm
    simp [State.raise, h, Vector.getElem_set_ne _ _ h']

theorem State.raise_pending_mono (s : State) (e : EventSrc) (i : Fin 16) (h : s.mpt.sources[i].pending = true) :
    (s.raise e).mpt.sources[i].pending = true := by
  rw [State.raise_source]; split
  · show (_ || _) = true
    rw [h]; rfl
  · exact h

theorem State.raise_priority (s : State) (e : EventSrc) (i : Fin 16) :
    (s.raise e).mpt.sources[i].priority = s.mpt.sources[i].priority := by
  rw [State.raise_source]; split <;> rfl

theorem EventSrc.idx_injective (a b : EventSrc) (h : a.idx = b.idx) : a = b := by
  revert h; cases a <;> cases b <;> decide

theorem State.raise_other (s : State) (e f : EventSrc) (h : f ≠ e) :
    (s.raise e).mpt.sources[f.idx] = s.mpt.sources[f.idx] := by
  rw [State.raise_source, if_neg fun x => h (EventSrc.idx_injective f e x)]

/-- The event is there after the raise. -/
theorem State.raised (s : State) (e : EventSrc) : Raised (s.raise e) e := by
  intro h; rw [State.raise_priority] at h; rw [State.raise_source, if_pos rfl]
  show (_ || decide _) = true
  rw [decide_eq_true h, Bool.or_true]

/-- The event of a notice is there after it. -/
theorem State.notice_raised (s : State) (k : FaultKind) (c : Option Nat) {e : EventSrc} (h : k.source = some e) :
    Raised (s.notice k c) e := by
  unfold State.notice; simp only [h]; exact State.raised _ _

/-- Two lists of sources that differ in their pending marks only. -/
theorem State.raise_sources_map (s : State) (e : EventSrc) :
    mapTable (fun x => { x with pending := false }) (s.raise e).mpt.sources =
      mapTable (fun x => { x with pending := false }) s.mpt.sources := by
  apply Vector.ext; intro i hi
  have := State.raise_source s e ⟨i, hi⟩
  simp only [getElem_mapTable]
  simp only [Fin.getElem_fin] at this
  rw [this]; split <;> rfl

@[simp] theorem base_raise (s : State) (e : EventSrc) : base (s.raise e) = base s := by
  simp only [base, State.raise_sources_map]; rfl

/-! ## Each part of `conclude` and `base` -/

theorem base_onlyIf (s : State) (c : Bool) (f : State → State) (h : base (f s) = base s) :
    base (s.onlyIf c f) = base s := by
  cases c <;> simp [State.onlyIf, h]

@[simp] theorem base_refreshBarOut (s : State) : base s.refreshBarOut = base s := by
  have : base s.refreshBarOut = base (s.onlyIf (s.barOutNow && !s.fsq.barOut) fun s => s.raise .barOut) := rfl
  rw [this]; exact base_onlyIf _ _ _ (base_raise _ _)

@[simp] theorem base_entryEvents (s0 s : State) : base (State.entryEvents s0 s) = base s := by
  unfold State.entryEvents
  simp only
  rw [base_onlyIf _ _ _ (base_raise _ _), base_onlyIf _ _ _ (base_raise _ _), base_onlyIf _ _ _ (base_raise _ _)]

@[simp] theorem base_request (s : State) (k : TxKind) : base (s.request k) = base s := by
  unfold State.request; simp only; split
  · rfl
  · split <;> rfl

@[simp] theorem base_removeTx (s : State) (k : TxKind) : base (s.removeTx k) = base s := rfl

@[simp] theorem base_needTurned (s : State) : base s.needTurned = base s := by
  unfold State.needTurned; split
  · rfl
  · rfl
  · split <;> rfl
  · rfl
  · rfl

theorem base_recompute (s : State) : base s.recompute = base s := by
  unfold State.recompute; simp only
  rw [base_onlyIf _ _ _ (base_needTurned _), base_onlyIf _ _ _ (base_request _ _), base_onlyIf _ _ _ (base_raise _ _)]
  rfl

@[simp] theorem base_rearm (s : State) : base s.rearm = base s := rfl

@[simp] theorem base_refreshSummary (s : State) : base s.refreshSummary = base s := by
  unfold State.refreshSummary; simp only
  rw [base_onlyIf _ _ _ (base_request _ _)]; rfl

@[simp] theorem base_refreshPressed (s0 s : State) : base (State.refreshPressed s0 s) = base s :=
  base_onlyIf _ _ _ (base_request _ _)

@[simp] theorem base_addClaim (s : State) (p : Nat) : base (s.addClaim p) = base s := by
  unfold State.addClaim; split
  · have : base (((s.request (.claim p)).onUns fun u =>
      { u with active := s.insertClaim { pocket := p, stage := .queued } s.uns.active, yield := s.cfg.spacing })) =
        base (s.request (.claim p)) := rfl
    simp only [this, base_request]
  · rfl

@[simp] theorem base_select (n : Nat) (s : State) : base (State.select n s) = base s := by
  induction n generalizing s with
  | zero => rfl
  | succ n ih =>
    unfold State.select; split
    · split
      · rw [ih, base_addClaim]
      · rfl
    · rfl

/-- What agrees under `base` agrees under `peerBase`. -/
theorem peerBase_of_base {s t : State} (h : base s = base t) : peerBase s = peerBase t := by
  have hb := congrArg State.blt h
  have hf := congrArg State.flt h
  simp only [base] at hb hf
  simp only [peerBase, h, hb, hf]

theorem peerBase_onlyIf (s : State) (c : Bool) (f : State → State) (h : peerBase (f s) = peerBase s) :
    peerBase (s.onlyIf c f) = peerBase s := by
  cases c <;> simp [State.onlyIf, h]

theorem peerBase_notice (s : State) (k : FaultKind) (c : Option Nat) : peerBase (s.notice k c) = peerBase s := by
  unfold State.notice; simp only
  split
  · rw [peerBase_of_base (base_raise _ _)]; rfl
  · rfl

theorem peerBase_checkSizes (s : State) : peerBase s.checkSizes = peerBase s := by
  unfold State.checkSizes; simp only
  rw [peerBase_onlyIf _ _ _ (peerBase_notice _ _ _)]; rfl

/-! ## What the parts do, once -/

/-- A request changes the transmit queue at most. -/
theorem State.request_shape (s : State) (k : TxKind) :
    ∃ q, s.request k = { s with alc := { s.alc with queue := q } } := by
  unfold State.request; simp only; split
  · exact ⟨_, rfl⟩
  · split
    · exact ⟨_, rfl⟩
    · exact ⟨s.alc.queue, rfl⟩

/-- R100: a turned need changes the dispatch state and the transmit queue at most. -/
theorem State.needTurned_shape (s : State) :
    ∃ q, s.needTurned = { s with
      alc := { s.alc with queue := q }
      psr := { s.psr with dispatch := turnedDispatch s.psr.dispatch s.sfc.need.active } } := by
  obtain ⟨sig, bac, fsq, sfc, alc, psr, blt, uns, flt, mpt, stu, sm, pd⟩ := s
  obtain ⟨peers, ov, sh, sa, d, dt, mi, de, ee, se, su⟩ := psr
  cases d
  · exact ⟨alc.queue, rfl⟩
  · exact ⟨alc.queue, rfl⟩
  · cases h : sfc.need.active
    · simp only [State.needTurned, h, Bool.false_eq_true, if_false]
      exact ⟨_, rfl⟩
    · simp only [State.needTurned, h, if_true]
      exact ⟨alc.queue, rfl⟩
  · exact ⟨alc.queue, rfl⟩
  · exact ⟨alc.queue, rfl⟩

/-- R63: the recomputation writes the forecast, and with it at most the dispatch state, the transmit queue and one event. -/
theorem State.recompute_shape (s : State) :
    ∃ q, s.recompute = { s with
      sfc := { s.sfc with values := s.mpt.job.map s.forecastOf, need := s.needNow, starve := s.starveNow }
      alc := { s.alc with queue := q }
      psr := { s.psr with dispatch :=
        if s.needNow.active = s.sfc.need.active then s.psr.dispatch
        else turnedDispatch s.psr.dispatch s.needNow.active }
      mpt := (s.onlyIf (s.starveNow && !s.sfc.starve) fun s => s.raise .starveExpected).mpt } := by
  unfold State.recompute
  simp only
  generalize hx : (s.onSfc fun f => { f with values := s.mpt.job.map s.forecastOf, need := s.needNow, starve := s.starveNow }) = x
  have hy : (x.onlyIf (s.starveNow && !s.sfc.starve) fun s => s.raise .starveExpected) =
      { x with mpt := (s.onlyIf (s.starveNow && !s.sfc.starve) fun s => s.raise .starveExpected).mpt } := by
    subst hx; cases (s.starveNow && !s.sfc.starve) <;> rfl
  rw [hy]
  generalize hz : ({ x with mpt := (s.onlyIf (s.starveNow && !s.sfc.starve) fun s => s.raise .starveExpected).mpt } : State) = z
  have hw : ∃ q, (z.onlyIf (s.sfc.need.changed s.needNow) fun s => s.request .presence) =
      { z with alc := { z.alc with queue := q } } := by
    cases s.sfc.need.changed s.needNow
    · exact ⟨z.alc.queue, rfl⟩
    · exact State.request_shape z .presence
  obtain ⟨q, hq⟩ := hw
  rw [hq]
  cases hb : (s.sfc.need.active != s.needNow.active)
  · refine ⟨q, ?_⟩
    have : s.needNow.active = s.sfc.need.active := by simpa using (bne_eq_false_iff_eq.mp hb).symm
    subst hz hx
    simp only [State.onlyIf, cond_false, if_pos this]
    rfl
  · have hn : ¬ s.needNow.active = s.sfc.need.active := fun h => by simp [h] at hb
    obtain ⟨q', hq'⟩ := State.needTurned_shape { z with alc := { z.alc with queue := q } }
    refine ⟨q', ?_⟩
    simp only [State.onlyIf, cond_true, if_neg hn]
    rw [hq']
    subst hz hx
    rfl

/-- R144: a selection changes the active claims, the yield counter and the transmit queue at most. -/
theorem State.select_shape (n : Nat) (s : State) :
    ∃ q a y, State.select n s =
      { s with alc := { s.alc with queue := q }, uns := { s.uns with active := a, yield := y } } := by
  induction n generalizing s with
  | zero => exact ⟨s.alc.queue, s.uns.active, s.uns.yield, rfl⟩
  | succ n ih =>
    unfold State.select; split
    · split
      · rename_i p _
        obtain ⟨q, a, y, h⟩ := ih (s.addClaim p)
        rw [h]
        unfold State.addClaim; split
        · obtain ⟨q', h'⟩ := State.request_shape s (.claim p)
          refine ⟨q, a, y, ?_⟩
          simp only [h']; rfl
        · exact ⟨q, a, y, rfl⟩
      · exact ⟨s.alc.queue, s.uns.active, s.uns.yield, rfl⟩
    · exact ⟨s.alc.queue, s.uns.active, s.uns.yield, rfl⟩

/-- A notice changes the record of notices and the event sources at most, and raises its own source alone. -/
theorem State.notice_shape (s : State) (k : FaultKind) (c : Option Nat) :
    ∃ v, s.notice k c = { s with
      flt := { s.flt with last := some (k, c), notices := s.flt.notices + 1 }
      mpt := { s.mpt with sources := v } } ∧
      (∀ i : Fin 16, s.mpt.sources[i].pending = true → v[i].pending = true) ∧
      (∀ i : Fin 16, v[i].priority = s.mpt.sources[i].priority) ∧
      ∀ e : EventSrc, k.source ≠ some e → v[e.idx] = s.mpt.sources[e.idx] := by
  unfold State.notice; simp only
  cases h : k.source with
  | none => exact ⟨s.mpt.sources, rfl, fun _ h => h, fun _ => rfl, fun _ _ => rfl⟩
  | some e =>
    refine ⟨((s.onFlt fun f => { f with last := some (k, c), notices := f.notices + 1 }).raise e).mpt.sources, rfl,
      fun i hi => ?_, fun i => ?_, fun f hf => ?_⟩
    · exact State.raise_pending_mono _ e i hi
    · exact State.raise_priority _ e i
    · exact State.raise_other _ e f fun x => hf (by rw [x])

/-- R130: the size check changes the mark at most, and the notice of its rise. -/
theorem State.checkSizes_shape (s : State) :
    ∃ v m l n, s.checkSizes = { s with
        blt := { s.blt with mismatch := m }, flt := { s.flt with last := l, notices := n }
        mpt := { s.mpt with sources := v } } ∧
      (∀ i : Fin 16, s.mpt.sources[i].pending = true → v[i].pending = true) ∧
      (∀ i : Fin 16, v[i].priority = s.mpt.sources[i].priority) ∧
      ∀ e : EventSrc, e ≠ .lineNotice → v[e.idx] = s.mpt.sources[e.idx] := by
  unfold State.checkSizes; simp only
  generalize (s.psr.peers.any fun p => p.n != s.cfg.pockets) = m
  cases m && !s.blt.mismatch
  · exact ⟨s.mpt.sources, m, s.flt.last, s.flt.notices, rfl, fun _ h => h, fun _ => rfl, fun _ _ => rfl⟩
  · obtain ⟨v, h, hp, hq, ho⟩ := State.notice_shape (s.onBlt fun b => { b with mismatch := m }) .beltSizeMismatch none
    refine ⟨v, m, _, _, by simp only [State.onlyIf, cond_true]; exact h, hp, hq, fun e he => ho e ?_⟩
    intro x; exact he (by simpa [FaultKind.source] using x.symm)

/-- A conditional raise, as a change of the sources. -/
theorem State.raiseIf_shape (s : State) (c : Bool) (e : EventSrc) :
    ∃ v, (s.onlyIf c fun s => s.raise e) = { s with mpt := { s.mpt with sources := v } } ∧
      (∀ i : Fin 16, s.mpt.sources[i].pending = true → v[i].pending = true) ∧
      (∀ i : Fin 16, v[i].priority = s.mpt.sources[i].priority) ∧
      (c = true → 1 ≤ v[e.idx].priority → v[e.idx].pending = true) ∧
      ∀ f : EventSrc, f ≠ e → v[f.idx] = s.mpt.sources[f.idx] := by
  cases c
  · exact ⟨s.mpt.sources, rfl, fun _ h => h, fun _ => rfl, fun h => absurd h (by decide), fun _ _ => rfl⟩
  · exact ⟨(s.raise e).mpt.sources, rfl, fun i h => State.raise_pending_mono s e i h, fun i => State.raise_priority s e i,
      fun _ => State.raised s e, fun f h => State.raise_other s e f h⟩

/-- What the four entry events have done: no mark is lost, the due ones are there, no other source is touched. -/
structure Entered (s0 u : State) (v : Vector Source 16) : Prop where
  mono : ∀ i : Fin 16, u.mpt.sources[i].pending = true → v[i].pending = true
  prio : ∀ i : Fin 16, v[i].priority = u.mpt.sources[i].priority
  barOut : u.barOutNow = true → u.fsq.barOut = false → 1 ≤ v[EventSrc.barOut.idx].priority →
    v[EventSrc.barOut.idx].pending = true
  lotDone : u.fsq.st = .lotDone → s0.fsq.st ≠ .lotDone → 1 ≤ v[EventSrc.lotDone.idx].priority →
    v[EventSrc.lotDone.idx].pending = true
  holdFull : u.holdFull = true → s0.holdFull = false → 1 ≤ v[EventSrc.holdFull.idx].priority →
    v[EventSrc.holdFull.idx].pending = true
  binFull : u.binFull = true → s0.binFull = false → 1 ≤ v[EventSrc.rejectBinFull.idx].priority →
    v[EventSrc.rejectBinFull.idx].pending = true
  others : ∀ e : EventSrc, e ∉ [EventSrc.barOut, .lotDone, .holdFull, .rejectBinFull] → v[e.idx] = u.mpt.sources[e.idx]

theorem State.entry_shape (s0 u : State) :
    ∃ v, State.entryEvents s0 u.refreshBarOut =
        { u with fsq := { u.fsq with barOut := u.barOutNow }, mpt := { u.mpt with sources := v } } ∧ Entered s0 u v := by
  obtain ⟨v1, h1, m1, p1, r1, o1⟩ := State.raiseIf_shape u (u.barOutNow && !u.fsq.barOut) .barOut
  have e1 : u.refreshBarOut =
      { u with fsq := { u.fsq with barOut := u.barOutNow }, mpt := { u.mpt with sources := v1 } } := by
    unfold State.refreshBarOut; simp only; rw [h1]; rfl
  generalize hx : ({ u with fsq := { u.fsq with barOut := u.barOutNow }, mpt := { u.mpt with sources := v1 } } : State) = x at e1
  obtain ⟨v2, h2, m2, p2, r2, o2⟩ := State.raiseIf_shape x (x.fsq.st == .lotDone && s0.fsq.st != .lotDone) .lotDone
  generalize hy : ({ x with mpt := { x.mpt with sources := v2 } } : State) = y at h2
  obtain ⟨v3, h3, m3, p3, r3, o3⟩ := State.raiseIf_shape y (y.holdFull && !s0.holdFull) .holdFull
  generalize hz : ({ y with mpt := { y.mpt with sources := v3 } } : State) = z at h3
  obtain ⟨v4, h4, m4, p4, r4, o4⟩ := State.raiseIf_shape z (z.binFull && !s0.binFull) .rejectBinFull
  have sx : x.mpt.sources = v1 := by rw [← hx]
  have sy : y.mpt.sources = v2 := by rw [← hy]
  have sz : z.mpt.sources = v3 := by rw [← hz]
  rw [sx] at m2 p2 o2
  rw [sy] at m3 p3 o3
  rw [sz] at m4 p4 o4
  refine ⟨v4, ?_, ⟨fun i h => m4 i (m3 i (m2 i (m1 i h))), fun i => by rw [p4, p3, p2, p1], ?_, ?_, ?_, ?_, ?_⟩⟩
  · unfold State.entryEvents; simp only
    rw [e1, h2, h3, h4, ← hz, ← hy, ← hx]
  · intro a b c
    rw [o4 _ (by decide), o3 _ (by decide), o2 _ (by decide)] at c ⊢
    exact r1 (by rw [a, b]; rfl) c
  · intro a b c
    rw [o4 _ (by decide), o3 _ (by decide)] at c ⊢
    refine r2 ?_ c
    have hst : x.fsq.st = .lotDone := by rw [← hx]; exact a
    rw [hst]
    simpa using b
  · intro a b c
    rw [o4 _ (by decide)] at c ⊢
    refine r3 ?_ c
    have hst : y.holdFull = true := by rw [← hy, ← hx]; exact a
    rw [hst, b]; rfl
  · intro a b c
    refine r4 ?_ c
    have hst : z.binFull = true := by rw [← hz, ← hy, ← hx]; exact a
    rw [hst, b]; rfl
  · intro e he
    simp only [List.mem_cons, List.not_mem_nil, or_false, not_or] at he
    rw [o4 _ he.2.2.2, o3 _ he.2.2.1, o2 _ he.2.1, o1 _ he.1]

/-- The parts of `conclude` after the entry events, for a running station. -/
theorem State.conclude_eq (force : Bool) (s0 u : State) (hr : u.running = true) :
    State.conclude force s0 u =
      (let a := State.entryEvents s0 u.refreshBarOut
       let a := a.onlyIf (force || forecastDue s0 a) State.recompute
       let a := a.onlyIf (peersChanged s0 a) State.checkSizes
       let a := a.rearm
       let a := State.refreshPressed s0 a.refreshSummary
       a.onlyIf (selectionDue s0 a) fun s => s.select Config.claimCapacity) := by
  unfold State.conclude; rw [if_pos hr]

/-! ## The check for arming keeps the pockets -/

theorem State.armedStage_pocket (s : State) (i : Nat) (c : ActiveClaim) : (s.armedStage i c).pocket = c.pocket := by
  unfold State.armedStage; split <;> rfl

theorem State.armed_pockets (s : State) (l : List ActiveClaim) :
    (l.mapIdx s.armedStage).map (·.pocket) = l.map (·.pocket) := by
  apply List.ext_getElem
  · simp
  · intro i h1 h2; simp [State.armedStage_pocket]

theorem any_pocket (l : List ActiveClaim) (p : Nat) : (l.any (·.pocket == p)) = (l.map (·.pocket)).any (· == p) := by
  rw [List.any_map]; rfl

/-- A selection is due on the pockets of the claims, not on their stages. -/
theorem selectionDue_congr (s0 s t : State) (h1 : t.uns.closing = s.uns.closing)
    (h2 : t.uns.active.map (·.pocket) = s.uns.active.map (·.pocket)) (h3 : t.uns.seq = s.uns.seq) (h4 : t.fsq.st = s.fsq.st)
    (h5 : t.mayClaim = s.mayClaim) (h6 : t.blt.map = s.blt.map) : selectionDue s0 t = selectionDue s0 s := by
  have hn : t.uns.names = s.uns.names := by
    funext p; unfold Uns.names; rw [h1, any_pocket, any_pocket, h2]
  unfold selectionDue claimLeft pocketFreed
  rw [hn, h3, h4, h5, h6]

/-- The whole of `conclude`, as one record update. -/
theorem State.conclude_shape (force : Bool) (s0 u : State) (hr : u.running = true) :
    ∃ v sfc q d m l n a y,
      State.conclude force s0 u = { u with
        fsq := { u.fsq with barOut := u.barOutNow }
        sfc := sfc
        alc := { u.alc with queue := q }
        psr := { u.psr with dispatch := d, summary := u.summaryNow }
        blt := { u.blt with mismatch := m }
        uns := { u.uns with active := a, yield := y }
        flt := { u.flt with last := l, notices := n }
        mpt := { u.mpt with sources := v } } ∧
      (recomputes force s0 u = false → sfc = u.sfc) ∧
      (recomputes force s0 u = true → sfc = { u.sfc with
        values := u.mpt.job.map u.forecastOf, need := u.needNow, starve := u.starveNow }) ∧
      d = (if sfc.need.active = u.sfc.need.active then u.psr.dispatch
        else turnedDispatch u.psr.dispatch sfc.need.active) ∧
      (peersChanged s0 u = false → m = u.blt.mismatch ∧ l = u.flt.last ∧ n = u.flt.notices) ∧
      (∀ i : Fin 16, u.mpt.sources[i].pending = true → v[i].pending = true) ∧
      (u.barOutNow = true → u.fsq.barOut = false → 1 ≤ v[EventSrc.barOut.idx].priority →
        v[EventSrc.barOut.idx].pending = true) ∧
      (u.fsq.st = .lotDone → s0.fsq.st ≠ .lotDone → 1 ≤ v[EventSrc.lotDone.idx].priority →
        v[EventSrc.lotDone.idx].pending = true) ∧
      (u.holdFull = true → s0.holdFull = false → 1 ≤ v[EventSrc.holdFull.idx].priority →
        v[EventSrc.holdFull.idx].pending = true) ∧
      (u.binFull = true → s0.binFull = false → 1 ≤ v[EventSrc.rejectBinFull.idx].priority →
        v[EventSrc.rejectBinFull.idx].pending = true) ∧
      (sfc.starve = true → u.sfc.starve = false → 1 ≤ v[EventSrc.starveExpected.idx].priority →
        v[EventSrc.starveExpected.idx].pending = true) ∧
      (∀ e : EventSrc, e ∉ [EventSrc.barOut, .lotDone, .holdFull, .rejectBinFull, .starveExpected] →
        (e = .lineNotice → peersChanged s0 u = false) → v[e.idx] = u.mpt.sources[e.idx]) ∧
      (peersChanged s0 u = false → selectionDue s0 u = false →
        a = u.uns.active.mapIdx u.armedStage ∧ y = u.uns.yield) ∧
      (peersChanged s0 u = false → selectionDue s0 u = false → recomputes force s0 u = false →
        u.psr.summary = u.summaryNow → s0.pressed = u.pressed → q = u.alc.queue) := by
  obtain ⟨v1, h1, E⟩ := State.entry_shape s0 u
  rw [State.conclude_eq force s0 u hr]
  simp only
  rw [h1]
  generalize hy : ({ u with fsq := { u.fsq with barOut := u.barOutNow }, mpt := { u.mpt with sources := v1 } } : State) = y
  have ey : (force || forecastDue s0 y) = recomputes force s0 u := by subst hy; rfl
  rw [ey]
  -- the recomputation
  have R : ∃ sfc q v, y.onlyIf (recomputes force s0 u) State.recompute = { y with
        sfc := sfc, alc := { y.alc with queue := q }
        psr := { y.psr with dispatch := if sfc.need.active = u.sfc.need.active then u.psr.dispatch
          else turnedDispatch u.psr.dispatch sfc.need.active }
        mpt := { y.mpt with sources := v } } ∧
      (recomputes force s0 u = false → sfc = u.sfc ∧ q = u.alc.queue) ∧
      (recomputes force s0 u = true → sfc = { u.sfc with
        values := u.mpt.job.map u.forecastOf, need := u.needNow, starve := u.starveNow }) ∧
      (∀ i : Fin 16, v1[i].pending = true → v[i].pending = true) ∧
      (sfc.starve = true → u.sfc.starve = false → 1 ≤ v[EventSrc.starveExpected.idx].priority →
        v[EventSrc.starveExpected.idx].pending = true) ∧
      (∀ e : EventSrc, e ≠ .starveExpected → v[e.idx] = v1[e.idx]) := by
    cases hrec : recomputes force s0 u
    · refine ⟨u.sfc, u.alc.queue, v1, ?_, fun _ => ⟨rfl, rfl⟩, (fun h => absurd h (by decide)), fun _ h => h,
        (fun a b => absurd a (by rw [b]; decide)), fun _ _ => rfl⟩
      subst hy; simp only [State.onlyIf, cond_false, if_true]
    · obtain ⟨q, hq⟩ := State.recompute_shape y
      obtain ⟨v, hv, mv, _, rv, ov⟩ := State.raiseIf_shape y (y.starveNow && !y.sfc.starve) .starveExpected
      rw [hv] at hq
      refine ⟨_, q, v, ?_, (fun h => absurd h (by decide)), (fun _ => rfl), ?_, ?_, ?_⟩
      · simp only [State.onlyIf, cond_true]; rw [hq]; subst hy; rfl
      · intro i hi; exact mv i (by subst hy; exact hi)
      · intro a b
        refine rv ?_
        have a' : y.starveNow = true := by subst hy; exact a
        have b' : y.sfc.starve = false := by subst hy; exact b
        rw [a', b']; rfl
      · intro e he; rw [ov e he]; subst hy; rfl
  obtain ⟨sfc, q1, v2, h2, k2, f2, m2, r2, o2⟩ := R
  rw [h2]
  generalize hz : ({ y with
        sfc := sfc, alc := { y.alc with queue := q1 }
        psr := { y.psr with dispatch := if sfc.need.active = u.sfc.need.active then u.psr.dispatch
          else turnedDispatch u.psr.dispatch sfc.need.active }
        mpt := { y.mpt with sources := v2 } } : State) = z
  have ez : peersChanged s0 z = peersChanged s0 u := by subst hz hy; rfl
  rw [ez]
  -- the size check
  have S : ∃ v m l n, z.onlyIf (peersChanged s0 u) State.checkSizes = { z with
        blt := { z.blt with mismatch := m }, flt := { z.flt with last := l, notices := n }
        mpt := { z.mpt with sources := v } } ∧
      (peersChanged s0 u = false → m = u.blt.mismatch ∧ l = u.flt.last ∧ n = u.flt.notices ∧ v = v2) ∧
      (∀ i : Fin 16, v2[i].pending = true → v[i].pending = true) ∧
      (∀ e : EventSrc, e ≠ .lineNotice → v[e.idx] = v2[e.idx]) := by
    have hv : z.mpt.sources = v2 := by rw [← hz]
    cases hpc : peersChanged s0 u
    · refine ⟨v2, u.blt.mismatch, u.flt.last, u.flt.notices, ?_, fun _ => ⟨rfl, rfl, rfl, rfl⟩, fun _ h => h, fun _ _ => rfl⟩
      subst hz hy; rfl
    · obtain ⟨v, m, l, n, hc, mc, _, oc⟩ := State.checkSizes_shape z
      rw [hv] at mc oc
      exact ⟨v, m, l, n, hc, fun h => absurd h (by decide), mc, oc⟩
  obtain ⟨v3, m, l, n, h3, k3, m3, o3⟩ := S
  rw [h3]
  generalize hw : ({ z with
        blt := { z.blt with mismatch := m }, flt := { z.flt with last := l, notices := n }
        mpt := { z.mpt with sources := v3 } } : State) = w
  -- the check for arming, the summary, PRESSED
  have T : ∃ q, State.refreshPressed s0 w.rearm.refreshSummary = { w with
        uns := { w.uns with active := w.uns.active.mapIdx w.armedStage }
        psr := { w.psr with summary := u.summaryNow }, alc := { w.alc with queue := q } } ∧
      (u.psr.summary = u.summaryNow → s0.pressed = u.pressed → q = q1) := by
    have e1 : ∃ q, w.rearm.refreshSummary = { w with
        uns := { w.uns with active := w.uns.active.mapIdx w.armedStage }
        psr := { w.psr with summary := u.summaryNow }, alc := { w.alc with queue := q } } ∧
        (u.psr.summary = u.summaryNow → q = q1) := by
      unfold State.refreshSummary; simp only
      have es : w.rearm.summaryNow = u.summaryNow := by subst hw hz hy; rfl
      have ep : w.rearm.psr.summary = u.psr.summary := by subst hw hz hy; rfl
      have eq' : w.alc.queue = q1 := by subst hw hz hy; rfl
      rw [es, ep]
      cases hc : (u.summaryNow != u.psr.summary)
      · exact ⟨w.alc.queue, rfl, fun _ => eq'⟩
      · obtain ⟨q, hq⟩ := State.request_shape (w.rearm.onPsr fun p => { p with summary := u.summaryNow }) .presence
        refine ⟨q, ?_, fun h => ?_⟩
        · simp only [State.onlyIf, cond_true]; rw [hq]; rfl
        · rw [h] at hc; simp at hc
    obtain ⟨q, hq, kq⟩ := e1
    rw [hq]
    unfold State.refreshPressed
    generalize hx : ({ w with
        uns := { w.uns with active := w.uns.active.mapIdx w.armedStage }
        psr := { w.psr with summary := u.summaryNow }, alc := { w.alc with queue := q } } : State) = x
    have ex : x.pressed = u.pressed := by subst hx hw hz hy; rfl
    rw [ex]
    cases hc : (s0.pressed != u.pressed)
    · exact ⟨q, by subst hx; rfl, fun h _ => kq h⟩
    · obtain ⟨q', hq'⟩ := State.request_shape x .presence
      refine ⟨q', ?_, fun _ h => ?_⟩
      · simp only [State.onlyIf, cond_true]; rw [hq']; subst hx; rfl
      · rw [h] at hc; simp at hc
  obtain ⟨q2, h4, k4⟩ := T
  rw [h4]
  generalize hx : ({ w with
        uns := { w.uns with active := w.uns.active.mapIdx w.armedStage }
        psr := { w.psr with summary := u.summaryNow }, alc := { w.alc with queue := q2 } } : State) = x
  -- the selection
  have Q : ∃ q a y', (x.onlyIf (selectionDue s0 x) fun s => s.select Config.claimCapacity) =
      { x with alc := { x.alc with queue := q }, uns := { x.uns with active := a, yield := y' } } ∧
      (selectionDue s0 x = false → q = q2 ∧ a = x.uns.active ∧ y' = x.uns.yield) := by
    cases hc : selectionDue s0 x
    · exact ⟨q2, x.uns.active, x.uns.yield, by subst hx; rfl, fun _ => ⟨rfl, rfl, rfl⟩⟩
    · obtain ⟨q, a, y', h⟩ := State.select_shape Config.claimCapacity x
      exact ⟨q, a, y', h, fun h => absurd h (by decide)⟩
  obtain ⟨q3, a, y', h5, k5⟩ := Q
  rw [h5]
  have sel : peersChanged s0 u = false → selectionDue s0 x = selectionDue s0 u := by
    intro hpc
    obtain ⟨rfl, rfl, rfl, rfl⟩ := k3 hpc
    apply selectionDue_congr
    · subst hx hw hz hy; rfl
    · subst hx hw hz hy; exact State.armed_pockets _ _
    · subst hx hw hz hy; rfl
    · subst hx hw hz hy; rfl
    · have hl : x.uns.active.length = u.uns.active.length := by subst hx hw hz hy; simp
      unfold State.mayClaim State.claimRoom
      rw [hl]
      subst hx hw hz hy; rfl
    · subst hx hw hz hy; rfl
  refine ⟨v3, sfc, q3, _, m, l, n, a, y', ?_, fun h => (k2 h).1, f2, rfl, fun h => ?_, ?_, ?_, ?_, ?_, ?_, ?_, ?_, ?_, ?_⟩
  · subst hx hw hz hy; rfl
  · exact ⟨(k3 h).1, (k3 h).2.1, (k3 h).2.2.1⟩
  · exact fun i h => m3 i (m2 i (E.mono i h))
  · intro p1 p2; rw [o3 _ (by decide), o2 _ (by decide)]; exact E.barOut p1 p2
  · intro p1 p2; rw [o3 _ (by decide), o2 _ (by decide)]; exact E.lotDone p1 p2
  · intro p1 p2; rw [o3 _ (by decide), o2 _ (by decide)]; exact E.holdFull p1 p2
  · intro p1 p2; rw [o3 _ (by decide), o2 _ (by decide)]; exact E.binFull p1 p2
  · intro p1 p2; rw [o3 _ (by decide)]; exact r2 p1 p2
  · intro e he hl
    simp only [List.mem_cons, List.not_mem_nil, or_false, not_or] at he
    have h23 : v3[e.idx] = v2[e.idx] := by
      by_cases hln : e = .lineNotice
      · rw [(k3 (hl hln)).2.2.2]
      · exact o3 e hln
    rw [h23, o2 e he.2.2.2.2]
    exact E.others e (by simp [he])
  · intro hpc hsd
    obtain ⟨-, rfl, rfl⟩ := k5 ((sel hpc).trans hsd)
    obtain ⟨rfl, rfl, rfl, rfl⟩ := k3 hpc
    subst hx hw hz hy
    exact ⟨rfl, rfl⟩
  · intro hpc hsd hrec hs hp
    rw [(k5 ((sel hpc).trans hsd)).1, k4 hs hp, (k2 hrec).2]

/-- All parts of `conclude` keep `base` while the peer table stands. -/
theorem State.base_conclude (force : Bool) (s0 u : State) (hr : u.running = true) (hp : peersChanged s0 u = false) :
    base (State.conclude force s0 u) = base u := by
  rw [State.conclude_eq force s0 u hr]
  simp only
  have hpc : peersChanged s0 ((State.entryEvents s0 u.refreshBarOut).onlyIf
      (force || forecastDue s0 (State.entryEvents s0 u.refreshBarOut)) State.recompute) = false := by
    rw [← hp]
    unfold peersChanged
    obtain ⟨v, h, _⟩ := State.entry_shape s0 u
    rw [h]
    cases (force || forecastDue s0 _)
    · rfl
    · obtain ⟨q, hq⟩ := State.recompute_shape
        { u with fsq := { u.fsq with barOut := u.barOutNow }, mpt := { u.mpt with sources := v } }
      simp only [State.onlyIf, cond_true]; rw [hq]
  rw [hpc]
  simp only [State.onlyIf_false, base_refreshPressed, base_refreshSummary, base_rearm,
    base_onlyIf _ _ _ (base_select _ _), base_onlyIf _ _ _ (base_recompute _), base_entryEvents, base_refreshBarOut]

theorem State.peerBase_conclude (force : Bool) (s0 u : State) (hr : u.running = true) :
    peerBase (State.conclude force s0 u) = peerBase u := by
  rw [State.conclude_eq force s0 u hr]
  simp only
  rw [peerBase_of_base (base_onlyIf _ _ _ (base_select _ _)),
    peerBase_of_base (base_refreshPressed _ _), peerBase_of_base (base_refreshSummary _), peerBase_of_base (base_rearm _),
    peerBase_onlyIf _ _ _ (peerBase_checkSizes _), peerBase_of_base (base_onlyIf _ _ _ (base_recompute _)),
    peerBase_of_base (base_entryEvents _ _), peerBase_of_base (base_refreshBarOut _)]

/-! ## The queue and the size mismatch, followed through `conclude` -/

theorem mem_insertEntry (e x : TxEntry) (q : List TxEntry) : x ∈ insertEntry e q ↔ x = e ∨ x ∈ q := by
  induction q with
  | nil => simp [insertEntry]
  | cons y ys ih =>
    unfold insertEntry; split
    · simp
    · simp only [List.mem_cons, ih]; exact or_left_comm

/-- R86, R87: what a request makes of the queue. -/
theorem State.request_queue (s : State) (k : TxKind) :
    (s.request k).alc.queue =
      if s.alc.st.accepts = true ∧ (k = .presence ∨ k = .dispatch) ∧ ∃ e ∈ s.alc.queue, e.kind = k then
        s.alc.queue.map fun e => if e.kind = k then e.join else e
      else if s.accepts = true then
        insertEntry { kind := k, value := s.valueOf k, payload := if k = .presence ∨ k = .dispatch then [] else s.payloadOf k,
                      fails := 0, again := false, inFlight := false, leaving := false } s.alc.queue
      else s.alc.queue := by
  unfold State.request
  simp only [Bool.and_eq_true, Bool.or_eq_true, beq_iff_eq, List.any_eq_true]
  split
  · rfl
  · split <;> rfl

theorem TxEntry.join_kind (e : TxEntry) : e.join.kind = e.kind := by unfold TxEntry.join; split <;> rfl

theorem TxEntry.join_asked (e : TxEntry) : if e.join.inFlight then e.join.again = true else e.join.fails = 0 := by
  unfold TxEntry.join; cases h : e.inFlight <;> simp

theorem State.request_presence (s : State) (h : mayAsk s) : Asked (s.request .presence).alc.queue := by
  rw [State.request_queue]
  by_cases hq : ∃ e ∈ s.alc.queue, e.kind = TxKind.presence
  · rw [if_pos ⟨h.1, .inl rfl, hq⟩]
    obtain ⟨e, he, hk⟩ := hq
    refine ⟨⟨e.join, List.mem_map.mpr ⟨e, he, by rw [if_pos hk]⟩, by rw [TxEntry.join_kind, hk]⟩, fun x hx hxk => ?_⟩
    obtain ⟨y, -, rfl⟩ := List.mem_map.mp hx
    split at hxk
    · rename_i hy; rw [if_pos hy]; exact y.join_asked
    · contradiction
  · have ha : s.accepts = true := by
      unfold State.accepts; rw [h.1]; exact decide_eq_true (h.2.resolve_right hq)
    rw [if_neg fun x => hq x.2.2, if_pos ha]
    refine ⟨⟨_, (mem_insertEntry _ _ _).mpr (.inl rfl), rfl⟩, fun x hx hk => ?_⟩
    rcases (mem_insertEntry _ _ _).mp hx with rfl | hx
    · rfl
    · exact absurd ⟨x, hx, hk⟩ hq

/-- A request for a PRESENCE or a CLAIM leaves a PRESENCE asked for, and no DISPATCH. -/
theorem State.request_keeps (s : State) (k : TxKind) (hk : k ≠ .dispatch) :
    (Asked s.alc.queue → Asked (s.request k).alc.queue) ∧ (Withdrawn s.alc.queue → Withdrawn (s.request k).alc.queue) := by
  rw [State.request_queue]
  split
  · rename_i h
    have hp : k = .presence := h.2.1.resolve_right hk
    subst hp
    constructor
    · intro hq
      have := State.request_presence s ⟨h.1, .inr h.2.2⟩
      rwa [State.request_queue, if_pos h] at this
    · intro hq x hx hxk
      obtain ⟨y, hy, rfl⟩ := List.mem_map.mp hx
      split at hxk
      · rename_i hyk; rw [TxEntry.join_kind, hyk] at hxk; contradiction
      · rename_i hyk; rw [if_neg hyk]; exact hq y hy hxk
  · rename_i h
    split
    · rename_i ha
      constructor
      · intro hq
        obtain ⟨⟨e, he, hek⟩, hall⟩ := hq
        refine ⟨⟨e, (mem_insertEntry _ _ _).mpr (.inr he), hek⟩, fun x hx hxk => ?_⟩
        rcases (mem_insertEntry _ _ _).mp hx with rfl | hx
        · rfl
        · exact hall x hx hxk
      · intro hq x hx hxk
        rcases (mem_insertEntry _ _ _).mp hx with rfl | hx
        · exact absurd hxk hk
        · exact hq x hx hxk
    · exact ⟨id, id⟩

theorem State.select_keeps (n : Nat) (s : State) :
    (Asked s.alc.queue → Asked (State.select n s).alc.queue) ∧
      (Withdrawn s.alc.queue → Withdrawn (State.select n s).alc.queue) := by
  induction n generalizing s with
  | zero => exact ⟨id, id⟩
  | succ n ih =>
    unfold State.select; split
    · split
      · rename_i p _
        have ha : (Asked s.alc.queue → Asked (s.addClaim p).alc.queue) ∧
            (Withdrawn s.alc.queue → Withdrawn (s.addClaim p).alc.queue) := by
          unfold State.addClaim; split
          · exact State.request_keeps s (.claim p) (by simp)
          · exact ⟨id, id⟩
        exact ⟨fun h => (ih _).1 (ha.1 h), fun h => (ih _).2 (ha.2 h)⟩
      · exact ⟨id, id⟩
    · exact ⟨id, id⟩

/-- R100: a turned need takes the DISPATCH of QUEUED away, and leaves a PRESENCE asked for. -/
theorem State.needTurned_queue (s : State) :
    (Asked s.alc.queue → Asked s.needTurned.alc.queue) ∧
      (s.psr.dispatch = .queued → s.sfc.need.active = false → Withdrawn s.needTurned.alc.queue) := by
  have hgone : (Asked s.alc.queue → Asked (s.removeTx .dispatch).alc.queue) ∧
      Withdrawn (s.removeTx .dispatch).alc.queue := by
    constructor
    · rintro ⟨⟨e, he, hek⟩, hall⟩
      refine ⟨⟨e, List.mem_map.mpr ⟨e, List.mem_filter.mpr ⟨he, by rw [hek]; rfl⟩, by rw [hek]; rfl⟩, hek⟩, fun x hx hxk => ?_⟩
      obtain ⟨y, hy, rfl⟩ := List.mem_map.mp hx
      by_cases hd : y.kind = .dispatch
      · simp [hd] at hxk
      · simp only [beq_iff_eq, hd, if_false] at hxk ⊢
        exact hall y (List.mem_filter.mp hy).1 hxk
    · intro x hx hxk
      obtain ⟨y, hy, rfl⟩ := List.mem_map.mp hx
      by_cases hd : y.kind = .dispatch
      · have := (List.mem_filter.mp hy).2
        simp only [hd, bne_self_eq_false, Bool.false_or] at this
        simp [hd, this]
      · simp [hd] at hxk
  unfold State.needTurned
  cases hd : s.psr.dispatch with
  | queued =>
    cases ha : s.sfc.need.active
    · simp only [Bool.false_eq_true, if_false]; exact ⟨hgone.1, fun _ _ => hgone.2⟩
    · simp only [if_true]; exact ⟨id, fun _ h => absurd h (by decide)⟩
  | none => exact ⟨id, fun h => absurd h (by decide)⟩
  | waiting => exact ⟨id, fun h => absurd h (by decide)⟩
  | sent => exact ⟨id, fun h => absurd h (by decide)⟩
  | enRoute => exact ⟨id, fun h => absurd h (by decide)⟩

/-- R62, R100: what the recomputation makes of the queue. -/
theorem State.recompute_queue (s : State) :
    (mayAsk s → s.sfc.need.changed s.needNow = true → Asked s.recompute.alc.queue) ∧
      (s.sfc.need.changed s.needNow = false → s.recompute.alc.queue = s.alc.queue) ∧
      (s.psr.dispatch = .queued → s.sfc.need.active = true → s.needNow.active = false →
        Withdrawn s.recompute.alc.queue) := by
  unfold State.recompute
  simp only
  generalize hx : (s.onSfc fun f => { f with values := s.mpt.job.map s.forecastOf, need := s.needNow, starve := s.starveNow }) = x
  have hy : ∃ v, (x.onlyIf (s.starveNow && !s.sfc.starve) fun s => s.raise .starveExpected) =
      { x with mpt := { x.mpt with sources := v } } := by
    cases (s.starveNow && !s.sfc.starve)
    · exact ⟨x.mpt.sources, rfl⟩
    · exact ⟨(x.raise .starveExpected).mpt.sources, rfl⟩
  obtain ⟨v, hv⟩ := hy
  rw [hv]
  generalize hz : ({ x with mpt := { x.mpt with sources := v } } : State) = z
  have hm : mayAsk s → mayAsk z := by subst hz hx; exact id
  have hq : z.alc.queue = s.alc.queue := by subst hz hx; rfl
  have hact : (s.sfc.need.active != s.needNow.active) = true → s.sfc.need.changed s.needNow = true := by
    intro h; unfold Need.changed; rw [h]; rfl
  refine ⟨fun hma hc => ?_, fun hc => ?_, fun hd h1 h2 => ?_⟩
  · have := State.request_presence z (hm hma)
    rw [hc]
    cases (s.sfc.need.active != s.needNow.active)
    · exact this
    · exact (State.needTurned_queue _).1 this
  · have hn : (s.sfc.need.active != s.needNow.active) = false := by
      cases h : (s.sfc.need.active != s.needNow.active)
      · rfl
      · rw [hact h] at hc; cases hc
    rw [hc, hn]; exact hq
  · have hn : (s.sfc.need.active != s.needNow.active) = true := by rw [h1, h2]; rfl
    rw [hn, hact hn]
    obtain ⟨q, hr⟩ := State.request_shape z .presence
    refine (State.needTurned_queue (z.request .presence)).2 ?_ ?_
    · rw [hr]; subst hz hx; exact hd
    · rw [hr]; subst hz hx; exact h2

/-- R130: what the size check makes of the mark and of the notices. -/
theorem State.checkSizes_marks (s : State) :
    let t := s.checkSizes
    (t.blt.mismatch = true ↔ ∃ p ∈ s.psr.peers, p.n ≠ s.cfg.pockets) ∧
      (t.blt.mismatch = true → s.blt.mismatch = false →
        t.flt.last = some (.beltSizeMismatch, none) ∧ t.flt.notices = s.flt.notices + 1 ∧ Raised t .lineNotice) ∧
      ((t.blt.mismatch = true → s.blt.mismatch = true) →
        t.flt = s.flt ∧ t.mpt.sources = s.mpt.sources) := by
  simp only
  have key : (s.psr.peers.any fun p => p.n != s.cfg.pockets) = true ↔ ∃ p ∈ s.psr.peers, p.n ≠ s.cfg.pockets := by
    simp
  unfold State.checkSizes
  simp only
  rw [← key]
  generalize (s.psr.peers.any fun p => p.n != s.cfg.pockets) = m
  cases m
  · exact ⟨Iff.rfl, fun h => absurd h (by simp [State.onlyIf, State.onBlt]), fun _ => ⟨rfl, rfl⟩⟩
  · cases hb : s.blt.mismatch
    · simp only [State.onlyIf, Bool.not_false, Bool.and_self, cond_true]
      exact ⟨⟨fun _ => trivial, fun _ => rfl⟩, fun _ _ => ⟨rfl, rfl, State.notice_raised _ _ _ rfl⟩, fun h => absurd (h rfl) (by decide)⟩
    · exact ⟨Iff.rfl, fun _ h => absurd h (by decide), fun _ => ⟨rfl, rfl⟩⟩

/-- The last parts of `conclude`, from the check for arming on. -/
def State.concludeLast (s0 s : State) : State :=
  let a := State.refreshPressed s0 s.rearm.refreshSummary
  a.onlyIf (selectionDue s0 a) fun s => s.select Config.claimCapacity

/-- The last parts leave size mismatch mark, notices and event sources, and the need, as they are. -/
theorem State.concludeLast_keeps (s0 s : State) :
    (State.concludeLast s0 s).blt = s.blt ∧ (State.concludeLast s0 s).flt = s.flt ∧
      (State.concludeLast s0 s).mpt = s.mpt ∧ (State.concludeLast s0 s).sfc = s.sfc := by
  unfold State.concludeLast State.refreshPressed State.refreshSummary
  simp only
  have hr (c : Bool) (x : State) : ∃ q, (x.onlyIf c fun s => s.request .presence) =
      { x with alc := { x.alc with queue := q } } := by
    cases c
    · exact ⟨x.alc.queue, rfl⟩
    · exact State.request_shape x .presence
  obtain ⟨q1, h1⟩ := hr (s.rearm.summaryNow != s.rearm.psr.summary) (s.rearm.onPsr fun p => { p with summary := s.rearm.summaryNow })
  rw [h1]
  generalize hx : ({ (s.rearm.onPsr fun p => { p with summary := s.rearm.summaryNow }) with
    alc := { (s.rearm.onPsr fun p => { p with summary := s.rearm.summaryNow }).alc with queue := q1 } } : State) = x
  obtain ⟨q2, h2⟩ := hr (s0.pressed != x.pressed) x
  rw [h2]
  generalize hy : ({ x with alc := { x.alc with queue := q2 } } : State) = y
  cases selectionDue s0 y
  · subst hy hx; exact ⟨rfl, rfl, rfl, rfl⟩
  · obtain ⟨q, a, w, h⟩ := State.select_shape Config.claimCapacity y
    simp only [State.onlyIf, cond_true]; rw [h]
    subst hy hx; exact ⟨rfl, rfl, rfl, rfl⟩

/-- R93, R94: the last parts ask for a PRESENCE where the summary or the PRESSED mark has changed, and leave one asked for, and
no DISPATCH. -/
theorem State.concludeLast_queue (s0 s : State) :
    (Asked s.alc.queue → Asked (State.concludeLast s0 s).alc.queue) ∧
      (Withdrawn s.alc.queue → Withdrawn (State.concludeLast s0 s).alc.queue) ∧
      (mayAsk s → s.psr.summary ≠ s.summaryNow ∨ s0.pressed ≠ s.pressed →
        Asked (State.concludeLast s0 s).alc.queue) := by
  unfold State.concludeLast
  simp only
  generalize hx : s.rearm.refreshSummary = x
  generalize hy : State.refreshPressed s0 x = y
  have hsel : (Asked y.alc.queue → Asked (y.onlyIf (selectionDue s0 y) fun s => s.select Config.claimCapacity).alc.queue) ∧
      (Withdrawn y.alc.queue → Withdrawn (y.onlyIf (selectionDue s0 y) fun s => s.select Config.claimCapacity).alc.queue) := by
    cases selectionDue s0 y
    · exact ⟨id, id⟩
    · exact State.select_keeps _ y
  have hxx : (Asked s.alc.queue → Asked x.alc.queue) ∧ (Withdrawn s.alc.queue → Withdrawn x.alc.queue) ∧
      (mayAsk s → s.psr.summary ≠ s.summaryNow → Asked x.alc.queue) ∧
      (s.psr.summary = s.summaryNow → mayAsk s → mayAsk x) ∧ x.pressed = s.pressed := by
    subst hx
    unfold State.refreshSummary
    simp only
    have hs : s.rearm.summaryNow = s.summaryNow := rfl
    have hp : s.rearm.psr.summary = s.psr.summary := rfl
    rw [hs, hp]
    cases hc : (s.summaryNow != s.psr.summary)
    · refine ⟨id, id, fun _ h => ?_, fun _ h => h, rfl⟩
      simp at hc; exact absurd hc.symm h
    · simp only [State.onlyIf, cond_true]
      have hk := State.request_keeps (s.rearm.onPsr fun p => { p with summary := s.summaryNow }) .presence (by decide)
      refine ⟨hk.1, hk.2, fun h _ => State.request_presence _ h, fun h => ?_, ?_⟩
      · rw [h] at hc; simp at hc
      · obtain ⟨q, hq⟩ := State.request_shape (s.rearm.onPsr fun p => { p with summary := s.summaryNow }) .presence
        rw [hq]; rfl
  have hyy : (Asked x.alc.queue → Asked y.alc.queue) ∧ (Withdrawn x.alc.queue → Withdrawn y.alc.queue) ∧
      (mayAsk x → s0.pressed ≠ x.pressed → Asked y.alc.queue) := by
    subst hy
    unfold State.refreshPressed
    cases hc : (s0.pressed != x.pressed)
    · refine ⟨id, id, fun _ h => ?_⟩
      simp at hc; exact absurd hc h
    · have hk := State.request_keeps x .presence (by decide)
      exact ⟨hk.1, hk.2, fun h _ => State.request_presence x h⟩
  refine ⟨fun h => hsel.1 (hyy.1 (hxx.1 h)), fun h => hsel.2 (hyy.2.1 (hxx.2.1 h)), fun hm h => ?_⟩
  by_cases hs : s.psr.summary = s.summaryNow
  · have hp := h.resolve_left fun x => x hs
    exact hsel.1 (hyy.2.2 (hxx.2.2.2.1 hs hm) (by rw [hxx.2.2.2.2]; exact hp))
  · exact hsel.1 (hyy.1 (hxx.2.2.1 hm hs))

/-- The first parts of `conclude`, through the recomputation. -/
theorem State.concludeFirst (force : Bool) (s0 u : State) (hr : u.running = true) : ∃ v b,
    let y : State := { u with fsq := { u.fsq with barOut := u.barOutNow }, mpt := { u.mpt with sources := v } }
    let z := y.onlyIf b State.recompute
    State.conclude force s0 u = State.concludeLast s0 (z.onlyIf (peersChanged s0 u) State.checkSizes) ∧
      z.psr.peers = u.psr.peers ∧ z.cfg = u.cfg ∧ z.blt = u.blt ∧ z.flt = u.flt ∧
      z.mpt.sources[EventSrc.lineNotice.idx] = u.mpt.sources[EventSrc.lineNotice.idx] := by
  obtain ⟨v, h, E⟩ := State.entry_shape s0 u
  refine ⟨v, force || forecastDue s0 (State.entryEvents s0 u.refreshBarOut), ?_⟩
  rw [State.conclude_eq force s0 u hr]
  simp only
  rw [h]
  generalize hy : ({ u with fsq := { u.fsq with barOut := u.barOutNow }, mpt := { u.mpt with sources := v } } : State) = y
  generalize (force || forecastDue s0 y) = b
  have hl : y.mpt.sources[EventSrc.lineNotice.idx] = u.mpt.sources[EventSrc.lineNotice.idx] := by
    subst hy; exact E.others .lineNotice (by decide)
  have hz : (y.onlyIf b State.recompute).psr.peers = u.psr.peers ∧ (y.onlyIf b State.recompute).cfg = u.cfg ∧
      (y.onlyIf b State.recompute).blt = u.blt ∧ (y.onlyIf b State.recompute).flt = u.flt ∧
      (y.onlyIf b State.recompute).mpt.sources[EventSrc.lineNotice.idx] = u.mpt.sources[EventSrc.lineNotice.idx] := by
    cases b
    · subst hy; exact ⟨rfl, rfl, rfl, rfl, hl⟩
    · obtain ⟨q, hq⟩ := State.recompute_shape y
      obtain ⟨w, hw, -, -, -, ow⟩ := State.raiseIf_shape y (y.starveNow && !y.sfc.starve) .starveExpected
      rw [hw] at hq
      generalize he : y.onlyIf true State.recompute = z
      obtain rfl : z = _ := he.symm.trans hq
      refine ⟨by subst hy; rfl, by subst hy; rfl, by subst hy; rfl, by subst hy; rfl, ?_⟩
      show w[_] = _
      rw [ow _ (by decide)]; exact hl
  refine ⟨?_, hz⟩
  have hp : peersChanged s0 (y.onlyIf b State.recompute) = peersChanged s0 u := by unfold peersChanged; rw [hz.1]
  rw [hp]; rfl

/-- R130: what follows a change of the peer table. -/
theorem State.conclude_marks (force : Bool) (s0 u : State) (hr : u.running = true) (hp : peersChanged s0 u = true) :
    let t := State.conclude force s0 u
    (t.blt.mismatch = true ↔ ∃ p ∈ u.psr.peers, p.n ≠ u.cfg.pockets) ∧
      (t.blt.mismatch = true → u.blt.mismatch = false →
        t.flt.last = some (.beltSizeMismatch, none) ∧ t.flt.notices = u.flt.notices + 1 ∧ Raised t .lineNotice) ∧
      ((t.blt.mismatch = true → u.blt.mismatch = true) →
        t.flt = u.flt ∧ t.mpt.sources[EventSrc.lineNotice.idx] = u.mpt.sources[EventSrc.lineNotice.idx]) := by
  obtain ⟨v, b, h, hpe, hc, hb, hf, hl⟩ := State.concludeFirst force s0 u hr
  simp only at h ⊢
  rw [h, hp]
  generalize (State.onlyIf _ b State.recompute) = z at *
  obtain ⟨m1, m2, m3⟩ := State.checkSizes_marks z
  obtain ⟨k1, k2, k3, -⟩ := State.concludeLast_keeps s0 z.checkSizes
  have k4 := congrArg (fun m : Mpt => m.sources[EventSrc.lineNotice.idx]) k3
  simp only [State.onlyIf, cond_true] at k4 ⊢
  unfold Raised at m2 ⊢
  rw [k1, k2, k4]
  rw [hpe, hc] at m1
  rw [hb, hf] at m2
  rw [hb, hf] at m3
  refine ⟨m1, m2, fun x => ⟨(m3 x).1, ?_⟩⟩
  have h3 := congrArg (fun v : Vector Source 16 => v[EventSrc.lineNotice.idx]) (m3 x).2
  exact h3.trans hl

/-- R62, R93, R94, R100: what follows a command in the transmit queue. -/
theorem State.conclude_asks (force : Bool) (s0 u : State) (hr : u.running = true) :
    let t := State.conclude force s0 u
    (mayAsk u → u.sfc.need.active ≠ t.sfc.need.active ∨ u.sfc.need.baseBand ≠ t.sfc.need.baseBand ∨
      u.sfc.need.barType ≠ t.sfc.need.barType ∨ u.psr.summary ≠ u.summaryNow ∨ s0.pressed ≠ u.pressed → Asked t.alc.queue) ∧
      (u.psr.dispatch = .queued → u.sfc.need.active = true → t.sfc.need.active = false → Withdrawn t.alc.queue) := by
  obtain ⟨v, b, h, -⟩ := State.concludeFirst force s0 u hr
  simp only at h ⊢
  rw [h]
  generalize hy : ({ u with fsq := { u.fsq with barOut := u.barOutNow }, mpt := { u.mpt with sources := v } } : State) = y
  -- the size check touches neither queue nor need
  have hc (x : State) : (x.onlyIf (peersChanged s0 u) State.checkSizes).alc = x.alc ∧
      (x.onlyIf (peersChanged s0 u) State.checkSizes).sfc = x.sfc ∧
      (x.onlyIf (peersChanged s0 u) State.checkSizes).psr = x.psr ∧
      (x.onlyIf (peersChanged s0 u) State.checkSizes).summaryNow = x.summaryNow ∧
      (x.onlyIf (peersChanged s0 u) State.checkSizes).pressed = x.pressed := by
    cases peersChanged s0 u
    · exact ⟨rfl, rfl, rfl, rfl, rfl⟩
    · obtain ⟨w, m, l, n, hw, -⟩ := State.checkSizes_shape x
      simp only [State.onlyIf, cond_true]; rw [hw]; exact ⟨rfl, rfl, rfl, rfl, rfl⟩
  obtain ⟨c1, c2, c3, c4, c5⟩ := hc (y.onlyIf b State.recompute)
  have K := State.concludeLast_keeps s0 ((y.onlyIf b State.recompute).onlyIf (peersChanged s0 u) State.checkSizes)
  have Q := State.concludeLast_queue s0 ((y.onlyIf b State.recompute).onlyIf (peersChanged s0 u) State.checkSizes)
  unfold mayAsk at Q
  rw [c1, c3, c4, c5] at Q
  rw [K.2.2.2, c2]
  have hsum : (y.onlyIf b State.recompute).psr.summary = u.psr.summary ∧
      (y.onlyIf b State.recompute).summaryNow = u.summaryNow ∧ (y.onlyIf b State.recompute).pressed = u.pressed := by
    cases b
    · subst hy; exact ⟨rfl, rfl, rfl⟩
    · obtain ⟨q, hq⟩ := State.recompute_shape y
      obtain ⟨w, hw, -⟩ := State.raiseIf_shape y (y.starveNow && !y.sfc.starve) .starveExpected
      rw [hw] at hq
      simp only [State.onlyIf, cond_true]; rw [hq]; subst hy; exact ⟨rfl, rfl, rfl⟩
  rw [hsum.1, hsum.2.1, hsum.2.2] at Q
  have hmy : mayAsk u → mayAsk y := by subst hy; exact id
  cases b
  · simp only [State.onlyIf_false] at Q ⊢
    have e1 : y.sfc = u.sfc := by subst hy; rfl
    rw [e1]
    refine ⟨fun hm hx => Q.2.2 (hmy hm) ?_, fun _ h1 h2 => absurd h1 (by rw [h2]; decide)⟩
    rcases hx with hx | hx | hx | hx
    · exact absurd rfl hx
    · exact absurd rfl hx
    · exact absurd rfl hx
    · exact hx
  · obtain ⟨R1, R2, R3⟩ := State.recompute_queue y
    have hn : (y.onlyIf true State.recompute).sfc.need = y.needNow := by
      obtain ⟨q, hq⟩ := State.recompute_shape y
      simp only [State.onlyIf, cond_true]; rw [hq]
    have hs : y.sfc.need = u.sfc.need := by subst hy; rfl
    rw [hn]
    rw [hs] at R1 R2 R3
    simp only [State.onlyIf, cond_true] at Q
    refine ⟨fun hm hx => ?_, fun hd h1 h2 => Q.2.1 (R3 (by subst hy; exact hd) h1 h2)⟩
    cases hch : u.sfc.need.changed y.needNow
    · have hq := R2 hch
      unfold Need.changed at hch
      simp only [Bool.or_eq_false_iff, bne_eq_false_iff_eq] at hch
      have ha : y.alc = u.alc := by subst hy; rfl
      have hst : (State.recompute y).alc.st = u.alc.st := by
        obtain ⟨q, hq⟩ := State.recompute_shape y
        rw [hq]; subst hy; rfl
      rw [hq, ha, hst] at Q
      refine Q.2.2 hm ?_
      rcases hx with hx | hx | hx | hx
      · exact absurd hch.1.1 hx
      · exact absurd hch.1.2 hx
      · exact absurd hch.2 hx
      · exact hx
    · exact Q.1 (R1 (hmy hm) hch)

/-! ## The claim selection (R142 to R145) -/

theorem State.yieldApplies_iff (s : State) : s.yieldApplies = true ↔ yields s := by
  have e : s.pressed = decide (4 ≤ s.uns.hold.length) := rfl
  simp only [State.yieldApplies, e, yields, Bool.and_eq_true, List.any_eq_true, decide_eq_true_eq, Bool.not_eq_true',
    decide_eq_false_iff_not, Nat.not_le]
  exact ⟨fun h => ⟨h.2, h.1⟩, fun h => ⟨h.2, h.1⟩⟩

theorem State.claimRoom_iff (s : State) :
    s.claimRoom = true ↔ s.uns.closing.length + s.uns.active.length < claimBound s := by
  show (decide (_ ≤ 4) && decide (_ ≤ s.uns.hold.length + if (s.fsq.st == .cutting) = true then 1 else 0)) = true ↔ _
  simp only [claimBound, Bool.and_eq_true, decide_eq_true_eq, beq_iff_eq, Nat.lt_min, Nat.succ_le_iff]

/-- R143: what the check for a further claim says. -/
theorem State.mayClaim_iff (s : State) : s.mayClaim = true ↔ MayAdd s := by
  have hsync : (match s.blt.sync with
      | .synced _ => true
      | .unsynced | .filling _ _ => false) = true ↔ ∃ b, s.blt.sync = .synced b := by
    cases s.blt.sync <;> simp
  have hy : (!s.yieldApplies || s.uns.yield == 0) = true ↔ (yields s → s.uns.yield = 0) := by
    rw [← State.yieldApplies_iff]; cases s.yieldApplies <;> simp
  unfold State.mayClaim
  simp only [Bool.and_eq_true, hy, State.claimRoom_iff, State.holdClaims, State.inSafe, Bool.not_eq_true',
    beq_iff_eq, beq_eq_false_iff_ne, Option.isNone_iff_eq_none]
  constructor
  · rintro ⟨⟨⟨⟨⟨⟨⟨h1, h2⟩, h3⟩, h4⟩, h5⟩, h6⟩, h7⟩, h8⟩; exact ⟨hsync.1 h1, h2, h3, h4, h5, h6, h7, h8⟩
  · rintro ⟨h1, h2, h3, h4, h5, h6, h7, h8⟩; exact ⟨⟨⟨⟨⟨⟨⟨hsync.2 h1, h2⟩, h3⟩, h4⟩, h5⟩, h6⟩, h7⟩, h8⟩

/-- R144: the pocket chosen is the nearest that may be claimed. -/
theorem State.choosePocket_some (s : State) (p : Nat) (h : s.choosePocket = some p) :
    ∃ a, p = s.pocketAt a ∧ Claimable s a ∧ ∀ x, x < a → ¬Claimable s x := by
  unfold State.choosePocket at h
  rw [List.find?_map, Option.map_eq_some_iff] at h
  obtain ⟨a, h, rfl⟩ := h
  rw [List.find?_range'_eq_some] at h
  obtain ⟨h1, h2, h3⟩ := h
  simp only [List.mem_range'_1, Function.comp, Bool.and_eq_true, beq_iff_eq, Bool.not_eq_true'] at h1 h2 h3
  refine ⟨a, rfl, ⟨h2.1, by omega, h1.1, h1.2⟩, fun x hx hc => ?_⟩
  have := h3 x hc.1 hx
  simp [hc.2.2.1, hc.2.2.2] at this

theorem State.choosePocket_none (s : State) (h : s.choosePocket = none) (a : Nat) : ¬Claimable s a := by
  intro hc
  unfold State.choosePocket at h
  rw [List.find?_eq_none] at h
  have := h (s.pocketAt a) (List.mem_map.mpr ⟨a, List.mem_range'_1.mpr ⟨hc.1, by have := hc.2.1; have := hc.1; omega⟩, rfl⟩)
  simp [hc.2.2.1, hc.2.2.2] at this

theorem State.mem_insertClaim (s : State) (c x : ActiveClaim) (l : List ActiveClaim) :
    x ∈ s.insertClaim c l ↔ x = c ∨ x ∈ l := by
  induction l with
  | nil => simp [State.insertClaim]
  | cons y ys ih =>
    unfold State.insertClaim
    split
    · simp
    · simp only [List.mem_cons, ih]; exact or_left_comm

theorem State.insertClaim_length (s : State) (c : ActiveClaim) (l : List ActiveClaim) :
    (s.insertClaim c l).length = l.length + 1 := by
  induction l with
  | nil => rfl
  | cons y ys ih => unfold State.insertClaim; split <;> simp [ih]

theorem State.filter_insertClaim (s : State) (c : ActiveClaim) (l : List ActiveClaim) (f : ActiveClaim → Bool)
    (hc : f c = false) (hl : ∀ x ∈ l, f x = true) : (s.insertClaim c l).filter f = l := by
  induction l with
  | nil => simp [State.insertClaim, hc]
  | cons y ys ih =>
    unfold State.insertClaim
    have hy := hl y (by simp)
    have := ih fun x hx => hl x (by simp [hx])
    split
    · simp only [List.filter_cons, hc, hy, if_true, Bool.false_eq_true, if_false]
      rw [List.filter_eq_self.mpr fun x hx => hl x (by simp [hx])]
    · simp only [List.filter_cons, hy, if_true, this]

theorem Uns.names_active (u : Uns) (c : ActiveClaim) (h : c ∈ u.active) : u.names c.pocket = true := by
  unfold Uns.names
  rw [Bool.or_eq_true]; right
  rw [List.any_eq_true]; exact ⟨c, h, by simp⟩

/-- An attempt that adds nothing. -/
theorem selected_self (v : State) (h : MayAdd v → v.accepts = true → ∀ a, ¬Claimable v a) : Selected v.uns v where
  rest := rfl
  stand := List.filter_eq_self.mpr fun c hc => Uns.names_active _ c hc
  added c hc hn := by rw [Uns.names_active _ c hc] at hn; cases hn
  allowed := by rintro ⟨c, hc, hn⟩; rw [Uns.names_active _ c hc] at hn; cases hn
  none _ := rfl
  done := h

theorem State.select_refused (n : Nat) (v : State) (h : v.accepts = false) : State.select n v = v := by
  induction n with
  | zero => rfl
  | succ n ih =>
    have e : ∀ p, v.addClaim p = v := fun p => by unfold State.addClaim; rw [h]; rfl
    unfold State.select
    split
    · split
      · rw [e, ih]
      · rfl
    · rfl

/-- A selection only adds to the transmit queue. -/
theorem State.select_queue (n : Nat) (v : State) (e : TxEntry) (h : e ∈ v.alc.queue) : e ∈ (State.select n v).alc.queue := by
  induction n generalizing v with
  | zero => exact h
  | succ n ih =>
    unfold State.select
    split
    · split
      · refine ih _ ?_
        unfold State.addClaim
        split
        · rename_i ha
          show e ∈ (v.request (.claim _)).alc.queue
          rw [State.request_queue, if_neg (by simp), if_pos ha]
          exact (mem_insertEntry _ _ _).mpr (.inr h)
        · exact h
      · exact h
    · exact h

/-- A claim joins, and the attempt goes on: what the rest of it does holds of the whole. -/
theorem selected_addClaim (v w : State) (p : Nat) (hv : MayAdd v) (hp : v.choosePocket = some p) (ha : v.accepts = true)
    (hs : ∃ q a y, w = { v with alc := { v.alc with queue := q }, uns := { v.uns with active := a, yield := y } })
    (hq : ∀ e ∈ (v.addClaim p).alc.queue, e ∈ w.alc.queue) (h : Selected (v.addClaim p).uns w) : Selected v.uns w := by
  obtain ⟨q, a', y, rfl⟩ := hs
  obtain ⟨a, rfl, ⟨h1, h2, h3, h4⟩, hnear⟩ := State.choosePocket_some v p hp
  generalize hw : ({ v with alc := { v.alc with queue := q }, uns := { v.uns with active := a', yield := y } } : State) = w at *
  have hu : (v.addClaim (v.pocketAt a)).uns = { v.uns with
      active := v.insertClaim ⟨v.pocketAt a, .queued⟩ v.uns.active, yield := v.cfg.spacing } := by
    unfold State.addClaim; rw [if_pos ha]
    obtain ⟨q', h'⟩ := State.request_shape v (.claim (v.pocketAt a))
    rw [h']; rfl
  have hmem : ⟨v.pocketAt a, .queued⟩ ∈ (v.addClaim (v.pocketAt a)).uns.active := by
    rw [hu]; exact (State.mem_insertClaim v _ _ _).mpr (.inl rfl)
  have hn : ∀ x, (v.addClaim (v.pocketAt a)).uns.names x = (v.uns.names x || v.pocketAt a == x) := by
    intro x
    have e : (v.insertClaim ⟨v.pocketAt a, .queued⟩ v.uns.active).any (·.pocket == x) =
        (v.uns.active.any (·.pocket == x) || v.pocketAt a == x) := by
      rw [Bool.eq_iff_iff]
      simp only [List.any_eq_true, State.mem_insertClaim, Bool.or_eq_true]
      constructor
      · rintro ⟨c, rfl | hc, hx⟩
        · exact .inr hx
        · exact .inl ⟨c, hc, hx⟩
      · rintro (⟨c, hc, hx⟩ | hx)
        · exact ⟨c, .inr hc, hx⟩
        · exact ⟨_, .inl rfl, hx⟩
    rw [hu]
    show (v.uns.closing.any (·.pocket == x) || List.any _ _) = _
    rw [e, ← Bool.or_assoc]; rfl
  have hold : ∀ c ∈ w.uns.active, (v.addClaim (v.pocketAt a)).uns.names c.pocket = true → c ∈ (v.addClaim (v.pocketAt a)).uns.active :=
    fun c hc hx => by rw [← h.stand]; exact List.mem_filter.mpr ⟨hc, hx⟩
  have hin : (⟨v.pocketAt a, .queued⟩ : ActiveClaim) ∈ w.uns.active := by
    have : (⟨v.pocketAt a, .queued⟩ : ActiveClaim) ∈ w.uns.active.filter fun c => (v.addClaim (v.pocketAt a)).uns.names c.pocket := by
      rw [h.stand]; exact hmem
    exact (List.mem_filter.mp this).1
  have same : w.blt = v.blt ∧ w.stu = v.stu ∧ w.cfg = v.cfg ∧ (∀ x, w.entryAt x = v.entryAt x) ∧ (∀ x, w.pocketAt x = v.pocketAt x) ∧
      (yields w ↔ yields v) ∧ claimBound w = claimBound v ∧ w.uns.closing = v.uns.closing := by
    subst hw; exact ⟨rfl, rfl, rfl, fun _ => rfl, fun _ => rfl, Iff.rfl, rfl, rfl⟩
  obtain ⟨-, -, hcfg, hent, hpk, hyl, hbd, hcl⟩ := same
  have far : ∀ x, x < a → ¬Claimable w x := fun x hx hc => by
    refine hnear x hx ⟨by rw [← hcfg]; exact hc.1, by rw [← hcfg]; exact hc.2.1, by rw [← hent, ← hpk]; exact hc.2.2.1, ?_⟩
    have hnw := hc.2.2.2
    rw [hpk] at hnw
    cases hvn : v.uns.names (v.pocketAt x)
    · rfl
    · exfalso
      have : w.uns.names (v.pocketAt x) = true := by
        unfold Uns.names at hvn ⊢
        rw [Bool.or_eq_true] at hvn ⊢
        rw [hcl]
        refine hvn.imp id fun hx => ?_
        obtain ⟨c, hc', hce⟩ := List.any_eq_true.mp hx
        refine List.any_eq_true.mpr ⟨c, ?_, hce⟩
        have : c ∈ w.uns.active.filter fun c => (v.addClaim (v.pocketAt a)).uns.names c.pocket := by
          rw [h.stand, hu]; exact (State.mem_insertClaim v _ _ _).mpr (.inr hc')
        exact (List.mem_filter.mp this).1
      rw [this] at hnw; cases hnw
  -- with a claim set, nothing more joins while the yield rule applies
  have none_more : yields w → v.cfg.spacing ≠ 0 → ∀ c ∈ w.uns.active, (v.addClaim (v.pocketAt a)).uns.names c.pocket = true := by
    intro hy hs c hc
    cases hx : (v.addClaim (v.pocketAt a)).uns.names c.pocket
    · have := (h.allowed ⟨c, hc, hx⟩).1.spaced
      have hz := this (by obtain ⟨y1, y2⟩ := hyl.mp hy; refine ⟨?_, ?_⟩
                          · show (v.addClaim (v.pocketAt a)).uns.hold.length < 4
                            rw [hu]; exact y1
                          · subst hw; exact y2)
      have : (v.addClaim (v.pocketAt a)).uns.yield = v.cfg.spacing := by rw [hu]
      exact absurd (this.symm.trans hz) hs
    · rfl
  have len : (∀ c ∈ w.uns.active, (v.addClaim (v.pocketAt a)).uns.names c.pocket = true) → w.uns.active.length = v.uns.active.length + 1 := by
    intro hall
    have := h.stand
    rw [List.filter_eq_self.mpr hall] at this
    rw [this, hu]; exact State.insertClaim_length v _ _
  have some_new : ¬(∀ c ∈ w.uns.active, (v.addClaim (v.pocketAt a)).uns.names c.pocket = true) →
      ∃ c ∈ w.uns.active, (v.addClaim (v.pocketAt a)).uns.names c.pocket = false := fun hall =>
    Classical.byContradiction fun hno => hall fun c hc => by
      cases hx : (v.addClaim (v.pocketAt a)).uns.names c.pocket
      · exact absurd ⟨c, hc, hx⟩ hno
      · rfl
  exact {
    rest := by
      have := h.rest
      rw [hu] at this
      rw [this]
    stand := by
      have e : w.uns.active.filter (fun c => v.uns.names c.pocket) =
          (w.uns.active.filter fun c => (v.addClaim (v.pocketAt a)).uns.names c.pocket).filter fun c => v.uns.names c.pocket := by
        rw [List.filter_filter]
        refine List.filter_congr fun c _ => ?_
        rw [hn]; cases v.uns.names c.pocket <;> rfl
      rw [e, h.stand, hu]
      exact State.filter_insertClaim v _ _ _ h4 fun x hx => Uns.names_active _ x hx
    added := fun c hc hx => by
      cases hy : (v.addClaim (v.pocketAt a)).uns.names c.pocket
      · exact h.added c hc hy
      · have hm := hold c hc hy
        rw [hu] at hm
        rcases (State.mem_insertClaim v _ _ _).mp hm with rfl | hm
        · refine ⟨rfl, ?_, by rw [hent]; exact h3, a, by rw [hcfg]; exact h1, by rw [hcfg]; exact h2, by rw [hpk], far⟩
          refine ⟨⟨.claim (v.pocketAt a), v.valueOf (.claim (v.pocketAt a)), v.payloadOf (.claim (v.pocketAt a)), 0, false, false, false⟩,
            hq _ ?_, rfl⟩
          unfold State.addClaim; rw [if_pos ha]
          show _ ∈ (v.request (.claim (v.pocketAt a))).alc.queue
          rw [State.request_queue, if_neg (by simp), if_pos ha]
          exact (mem_insertEntry _ _ _).mpr (.inl (by simp))
        · rw [Uns.names_active _ c hm] at hx; cases hx
    allowed := fun _ => by
      refine ⟨?_, ?_, ?_, fun hy hs => len (none_more hy (by rw [← hcfg]; exact hs))⟩
      · subst hw; exact ⟨hv.synced, hv.free, hv.level, hv.line, hv.sizes, hv.running, hv.room, hv.spaced⟩
      · by_cases hall : ∀ c ∈ w.uns.active, (v.addClaim (v.pocketAt a)).uns.names c.pocket = true
        · rw [len hall, hcl, hbd]; have := hv.room; omega
        · obtain ⟨c, hc, hx⟩ := some_new hall
          exact (h.allowed ⟨c, hc, hx⟩).2.1
      · by_cases hall : ∀ c ∈ w.uns.active, (v.addClaim (v.pocketAt a)).uns.names c.pocket = true
        · rw [h.none hall, hu, hcfg]
        · obtain ⟨c, hc, hx⟩ := some_new hall
          exact (h.allowed ⟨c, hc, hx⟩).2.2.1
    none := fun hall => by
      have := hall _ hin
      rw [h4] at this; cases this
    done := h.done }

/-- R144: what a selection attempt does; the table holds at most 4 entries, so that 4 rounds are enough. -/
theorem State.select_does (n : Nat) (v : State) (hn : 4 ≤ v.uns.closing.length + v.uns.active.length + n) :
    Selected v.uns (State.select n v) := by
  induction n generalizing v with
  | zero =>
    refine selected_self v fun hv _ => ?_
    have := hv.room; have : claimBound v ≤ 4 := Nat.min_le_left _ _
    omega
  | succ n ih =>
    unfold State.select
    split
    · rename_i hm
      have hv := (State.mayClaim_iff v).mp hm
      split
      · rename_i p hp
        cases ha : v.accepts
        · have e : v.addClaim p = v := by unfold State.addClaim; rw [ha]; rfl
          rw [e, State.select_refused n v ha]
          exact selected_self v fun _ h => by rw [ha] at h; cases h
        · refine selected_addClaim v _ p hv hp ha ?_ (fun e he => State.select_queue n _ e he) (ih _ ?_)
          · obtain ⟨q, a, y, h⟩ := State.select_shape n (v.addClaim p)
            rw [h]
            unfold State.addClaim; rw [if_pos ha]
            obtain ⟨q', h'⟩ := State.request_shape v (.claim p)
            exact ⟨q, a, y, by rw [h']; rfl⟩
          · have : (v.addClaim p).uns.closing = v.uns.closing ∧ (v.addClaim p).uns.active.length = v.uns.active.length + 1 := by
              unfold State.addClaim; rw [if_pos ha]
              obtain ⟨q', h'⟩ := State.request_shape v (.claim p)
              rw [h']
              exact ⟨rfl, State.insertClaim_length v _ _⟩
            rw [this.1, this.2]; omega
      · rename_i hp
        exact selected_self v fun _ _ => State.choosePocket_none v hp
    · rename_i hm
      exact selected_self v fun hv => absurd ((State.mayClaim_iff v).mpr hv) hm

/-- R144: with an occasion, what follows a command is a selection attempt on the claims that the check for arming has left. -/
theorem State.conclude_selects (force : Bool) (s0 u : State) (hr : u.running = true) :
    let t := State.conclude force s0 u
    selectionDue s0 { u with blt := { u.blt with mismatch := t.blt.mismatch } } = true →
      Selected { u.uns with active := u.uns.active.mapIdx u.armedStage } t := by
  obtain ⟨v, b, h, -⟩ := State.concludeFirst force s0 u hr
  simp only at h ⊢
  rw [h]
  generalize hy : ({ u with fsq := { u.fsq with barOut := u.barOutNow }, mpt := { u.mpt with sources := v } } : State) = y
  have hz : ∃ sfc q d v, y.onlyIf b State.recompute = { y with
      sfc := sfc, alc := { y.alc with queue := q }, psr := { y.psr with dispatch := d }, mpt := { y.mpt with sources := v } } := by
    cases b
    · exact ⟨y.sfc, y.alc.queue, y.psr.dispatch, y.mpt.sources, rfl⟩
    · obtain ⟨q, hq⟩ := State.recompute_shape y
      obtain ⟨w, hw, -⟩ := State.raiseIf_shape y (y.starveNow && !y.sfc.starve) .starveExpected
      rw [hw] at hq
      simp only [State.onlyIf, cond_true]; rw [hq]; exact ⟨_, _, _, _, rfl⟩
  obtain ⟨sfc, q, d, v', hz⟩ := hz
  rw [hz]
  generalize hz' : ({ y with
    sfc := sfc, alc := { y.alc with queue := q }, psr := { y.psr with dispatch := d }, mpt := { y.mpt with sources := v' } } : State) = z
  have hx : ∃ w m l n, z.onlyIf (peersChanged s0 u) State.checkSizes = { z with
      blt := { z.blt with mismatch := m }, flt := { z.flt with last := l, notices := n }, mpt := { z.mpt with sources := w } } := by
    cases peersChanged s0 u
    · exact ⟨z.mpt.sources, z.blt.mismatch, z.flt.last, z.flt.notices, rfl⟩
    · obtain ⟨w, m, l, n, hw, -⟩ := State.checkSizes_shape z
      simp only [State.onlyIf, cond_true]; exact ⟨w, m, l, n, hw⟩
  obtain ⟨w, m, l, n, hx⟩ := hx
  rw [hx]
  generalize hx' : ({ z with
    blt := { z.blt with mismatch := m }, flt := { z.flt with last := l, notices := n }, mpt := { z.mpt with sources := w } } : State) = x
  have hm : (State.concludeLast s0 x).blt.mismatch = m := by
    rw [(State.concludeLast_keeps s0 x).1]; subst hx'; rfl
  rw [hm]
  unfold State.concludeLast
  simp only
  have hA : ∃ q, State.refreshPressed s0 x.rearm.refreshSummary = { x with
      uns := { u.uns with active := u.uns.active.mapIdx u.armedStage }
      psr := { x.psr with summary := x.summaryNow }, alc := { x.alc with queue := q } } := by
    have hr (c : Bool) (x : State) : ∃ q, (x.onlyIf c fun s => s.request .presence) = { x with alc := { x.alc with queue := q } } := by
      cases c
      · exact ⟨x.alc.queue, rfl⟩
      · exact State.request_shape x .presence
    obtain ⟨q1, h1⟩ := hr (x.rearm.summaryNow != x.rearm.psr.summary) (x.rearm.onPsr fun p => { p with summary := x.rearm.summaryNow })
    unfold State.refreshPressed State.refreshSummary
    simp only
    rw [h1]
    generalize hg : ({ (x.rearm.onPsr fun p => { p with summary := x.rearm.summaryNow }) with
      alc := { (x.rearm.onPsr fun p => { p with summary := x.rearm.summaryNow }).alc with queue := q1 } } : State) = g
    obtain ⟨q2, h2⟩ := hr (s0.pressed != g.pressed) g
    rw [h2]
    refine ⟨q2, ?_⟩
    subst hg hx' hz' hy; rfl
  obtain ⟨q2, hA⟩ := hA
  rw [hA]
  generalize ha : ({ x with
      uns := { u.uns with active := u.uns.active.mapIdx u.armedStage }
      psr := { x.psr with summary := x.summaryNow }, alc := { x.alc with queue := q2 } } : State) = a
  intro hdue
  have e : selectionDue s0 a = selectionDue s0 { u with blt := { u.blt with mismatch := m } } := by
    refine selectionDue_congr s0 _ a ?_ ?_ ?_ ?_ ?_ ?_
    · subst ha; rfl
    · subst ha; exact State.armed_pockets u _
    · subst ha; rfl
    · subst ha hx' hz' hy; rfl
    · have hl : a.uns.active.length = u.uns.active.length := by subst ha; simp
      have hc : a.claimRoom = u.claimRoom := by
        unfold State.claimRoom State.holdFill
        rw [hl]; subst ha hx' hz' hy; rfl
      unfold State.mayClaim
      rw [hc]
      subst ha hx' hz' hy; rfl
    · subst ha hx' hz' hy; rfl
  rw [e, hdue]
  have hu : a.uns = { u.uns with active := u.uns.active.mapIdx u.armedStage } := by subst ha; rfl
  rw [← hu]
  exact State.select_does 4 a (by omega)

/-- What follows a command of a running station is `Follows`. -/
theorem State.conclude_follows (force : Bool) (s0 u : State) (hr : u.running = true) :
    Follows force s0 u (State.conclude force s0 u) := by
  obtain ⟨v, sfc, q, d, m, l, n, a, y, h, c1, c2, c3, _, c5, c6, c7, c8, c9, c10, c11, c12, c13⟩ :=
    State.conclude_shape force s0 u hr
  have hb := State.base_conclude force s0 u hr
  have hpb := State.peerBase_conclude force s0 u hr
  have hm := State.conclude_marks force s0 u hr
  have ha := State.conclude_asks force s0 u hr
  have hs := State.conclude_selects force s0 u hr
  simp only at hm ha hs
  rw [h] at hb hpb hm ha hs ⊢
  exact {
    rest := hb
    restPeers := hpb
    mismatch := fun hp => (hm hp).1
    mismatchRises := fun hp => (hm hp).2.1
    mismatchStands := fun hp => (hm hp).2.2
    presence := ha.1
    dispatch := ha.2
    barOut := rfl
    summary := rfl
    keeps := fun hr => ⟨c1 hr, by
      show d = u.psr.dispatch
      rw [c3, c1 hr, if_pos rfl]⟩
    fresh := fun hr => by rw [c2 hr]; exact ⟨rfl, rfl, rfl⟩
    turned := c3
    pending := c5
    barOutEvent := c6
    lotDoneEvent := c7
    holdFullEvent := c8
    binFullEvent := c9
    starveEvent := c10
    others := c11
    claims := c12
    selects := hs
    queue := c13 }

end Sys2Proof.Machine
end

