-- ==== Sys2Proof/Laws/Engine.lean ====
section
/-! SUPPORT. What the feed engine leaves alone: the start-up unit, the belt tracker, the peers, the filters, a home zero that is due and the lists of the world;
what a step fault does, and that an engine at rest does nothing. -/
namespace Sys2Proof.Machine

open Sys2Proof.Safety

/-- What no step of the feed engine touches. -/
def State.outer (s : State) : Stu × Blt × List Peer × List Sample × List Bool × List Instr × Vector Filter 21 × Bool × Option Job :=
  (s.stu, s.blt, s.psr.peers, s.samples, s.bits, s.pending, s.sig.filters, s.sig.zeroDue, s.mpt.job)

variable (s : State)

@[simp] theorem outer_onBac (f : Bac → Bac) : (s.onBac f).outer = s.outer := rfl
@[simp] theorem outer_onFsq (f : Fsq → Fsq) : (s.onFsq f).outer = s.outer := rfl
@[simp] theorem outer_onSfc (f : Sfc → Sfc) : (s.onSfc f).outer = s.outer := rfl
@[simp] theorem outer_onAlc (f : Alc → Alc) : (s.onAlc f).outer = s.outer := rfl
@[simp] theorem outer_onUns (f : Uns → Uns) : (s.onUns f).outer = s.outer := rfl
@[simp] theorem outer_onFlt (f : Flt → Flt) : (s.onFlt f).outer = s.outer := rfl
@[simp] theorem outer_raise (e : EventSrc) : (s.raise e).outer = s.outer := rfl

theorem outer_onSig (f : Sig → Sig) (h : ((f s.sig).filters, (f s.sig).zeroDue) = (s.sig.filters, s.sig.zeroDue)) :
    (s.onSig f).outer = s.outer := by
  obtain ⟨hf, hz⟩ := Prod.mk.injEq .. ▸ h
  simp [State.outer, State.onSig, hf, hz]
theorem outer_onPsr (f : Psr → Psr) (h : (f s.psr).peers = s.psr.peers) : (s.onPsr f).outer = s.outer := by
  simp [State.outer, State.onPsr, h]
theorem outer_onMpt (f : Mpt → Mpt) (h : (f s.mpt).job = s.mpt.job) : (s.onMpt f).outer = s.outer := by
  simp [State.outer, State.onMpt, h]

theorem outer_onlyIf (c : Bool) (f : State → State) (h : (f s).outer = s.outer) : (s.onlyIf c f).outer = s.outer := by
  cases c <;> simp [State.onlyIf, h]

@[simp] theorem outer_notice (k : FaultKind) (c : Option Nat) : (s.notice k c).outer = s.outer := by
  unfold State.notice; simp only; split <;> rfl
@[simp] theorem outer_request (k : TxKind) : (s.request k).outer = s.outer := by
  obtain ⟨q, h⟩ := State.request_shape s k; rw [h]; rfl
@[simp] theorem outer_recompute : s.recompute.outer = s.outer := by
  obtain ⟨q, h⟩ := State.recompute_shape s; rw [h]
  cases (s.starveNow && !s.sfc.starve) <;> rfl
@[simp] theorem outer_holdFeed : s.holdFeed.outer = s.outer := rfl
@[simp] theorem outer_stepFeed (k : FaultKind) (c : Option Nat) : (s.stepFeed k c).outer = s.outer := by
  unfold State.stepFeed; simp only
  rw [outer_onlyIf _ _ _ (outer_raise _ _), outer_onlyIf _ _ _ (by simp), outer_onFlt]

@[simp] theorem outer_askRelease (p : Nat) : (s.askRelease p).outer = s.outer := by
  unfold State.askRelease; split <;> simp
@[simp] theorem outer_releaseActive (p : Nat) : (s.releaseActive p).outer = s.outer := by simp [State.releaseActive]
@[simp] theorem outer_safeClosing (c : ClosingClaim) : (s.safeClosing c).outer = s.outer := by
  unfold State.safeClosing; split <;> simp
@[simp] theorem outer_safeActive (c : ActiveClaim) : (s.safeActive c).outer = s.outer := by
  unfold State.safeActive; split <;> simp

theorem outer_foldl {α : Type} (f : State → α → State) (h : ∀ s x, (f s x).outer = s.outer) (l : List α) (s : State) :
    (l.foldl f s).outer = s.outer := by
  induction l generalizing s with
  | nil => rfl
  | cons x l ih => rw [List.foldl_cons, ih, h]

@[simp] theorem outer_unsSafe : s.unsSafe.outer = s.outer := by
  unfold State.unsSafe; simp only
  rw [outer_foldl _ outer_safeActive, outer_foldl _ outer_safeClosing]
@[simp] theorem outer_endRound : s.endRound.outer = s.outer := by
  unfold State.endRound; split <;> rfl
@[simp] theorem outer_enterSafe : s.enterSafe.outer = s.outer := by
  unfold State.enterSafe; simp only; rw [outer_request, outer_onPsr _ _ rfl]; simp [State.emptyQueue]
@[simp] theorem outer_severe (k : FaultKind) (c : Option Nat) : (s.severe k c).outer = s.outer := by
  unfold State.severe; simp only
  rw [outer_onlyIf _ _ _ (outer_enterSafe _), outer_onFlt]
@[simp] theorem outer_enter (st : FeedState) : (s.enter st).outer = s.outer := rfl
@[simp] theorem outer_enterReady (b : Bool) : (s.enterReady b).outer = s.outer := by
  unfold State.enterReady; split <;> simp
@[simp] theorem outer_enterEmpty : s.enterEmpty.outer = s.outer := by simp [State.enterEmpty]
@[simp] theorem outer_setMove (m : Move) : (s.setMove m).outer = s.outer := rfl
@[simp] theorem outer_apply (m : Move) : (s.apply m).outer = s.outer := by
  unfold State.apply; split <;> simp
@[simp] theorem outer_driveHoming (m : Move) : (s.driveHoming m).outer = s.outer := by
  unfold State.driveHoming; simp only; split
  · split <;> simp
  · rw [outer_onSig _ _ rfl]; simp
@[simp] theorem outer_drive : s.drive.outer = s.outer := by
  unfold State.drive; split
  · rfl
  · split
    · simp
    · split <;> simp
@[simp] theorem outer_startMove (l : Leg) (d : Dir) (t : Option Int) : (s.startMove l d t).outer = s.outer := by
  simp [State.startMove]
@[simp] theorem outer_halt : s.halt.outer = s.outer := rfl
@[simp] theorem outer_dropMove : s.dropMove.outer = s.outer := rfl
@[simp] theorem outer_removeCurrent : s.removeCurrent.outer = s.outer := rfl
@[simp] theorem outer_foundBar : s.foundBar.outer = s.outer := outer_onlyIf _ _ _ rfl
@[simp] theorem outer_beginMeasure : s.beginMeasure.outer = s.outer := by
  unfold State.beginMeasure; simp only; split <;> (try rw [outer_stepFeed]) <;> (try rw [outer_startMove]) <;> rfl
@[simp] theorem outer_beginStep : s.beginStep.outer = s.outer := by
  unfold State.beginStep; simp only
  split <;> first | simp; done | (split <;> simp; done) |
    (rw [outer_onlyIf _ _ _ (outer_raise _ _)]; simp; done) | (rw [outer_onFsq, outer_onSig _ _ rfl]; simp)
@[simp] theorem outer_retryStep : s.retryStep.outer = s.outer := by
  unfold State.retryStep; simp only
  split <;> first | rfl | (split <;> simp; done) | (rw [outer_onlyIf _ _ _ (outer_onFsq _ _)]; rfl)
@[simp] theorem outer_endHoming : s.endHoming.outer = s.outer := by
  unfold State.endHoming; split
  · simp
  · split <;> simp
@[simp] theorem outer_enterByParts (b : Bool) : (s.enterByParts b).outer = s.outer := by
  unfold State.enterByParts; split <;> simp
@[simp] theorem outer_contact : s.contact.outer = s.outer := by simp [State.contact]
@[simp] theorem outer_positioned : s.positioned.outer = s.outer := by simp [State.positioned]
@[simp] theorem outer_bandCheck (c : BarRec) (n : Nat) : (s.bandCheck c n).outer = s.outer := by
  unfold State.bandCheck; split
  · rfl
  · split
    · exact outer_onlyIf _ _ _ rfl
    · simp
@[simp] theorem outer_measured (t : Int) : (s.measured t).outer = s.outer := by
  unfold State.measured; simp only; split
  · split
    · rw [outer_enter, outer_bandCheck, outer_onlyIf _ _ _ (outer_notice _ _ _), outer_onBac]
    · simp
  · simp
@[simp] theorem outer_endMove (m : Move) : (s.endMove m).outer = s.outer := by
  unfold State.endMove; split <;> first | simp; done | (split <;> simp)
@[simp] theorem outer_takeBar : s.takeBar.outer = s.outer := by unfold State.takeBar; split <;> simp
@[simp] theorem outer_ejected : s.ejected.outer = s.outer := by
  simp only [State.ejected, outer_enterEmpty, outer_raise, outer_removeCurrent, outer_onBac]
  exact outer_onSig _ _ rfl
@[simp] theorem outer_takeTrip (e : Word32) : (s.takeTrip e).outer = s.outer := by
  simp only [State.takeTrip, outer_onFsq, outer_halt]; exact outer_onSig _ _ rfl
@[simp] theorem outer_route (c : Bool × Bool) : (s.route c).outer = s.outer := by
  unfold State.route; simp only
  rw [outer_onUns, outer_onSig _ _ rfl, outer_onlyIf _ _ _ (outer_onMpt _ _ rfl)]
@[simp] theorem outer_account (c : Bool × Bool) : (s.account c).outer = s.outer := by
  unfold State.account; simp only
  refine (outer_recompute _).trans ((outer_enterByParts _ _).trans ?_)
  refine (outer_onlyIf _ _ _ (by simp)).trans ((outer_onlyIf _ _ _ (by simp)).trans ?_)
  refine (outer_onSfc _ _).trans ((outer_route _ _).trans ((outer_onMpt _ _ rfl).trans (outer_onFsq _ _)))

theorem outer_cutStep {t : State} (h : s.cutStep = some t) : t.outer = s.outer := by
  unfold State.cutStep at h
  split at h
  · split at h <;> simp at h; subst h; simp
  · simp at h; subst h; rfl
  · split at h <;> simp at h; subst h; rw [outer_notice]; rfl
  · simp at h; subst h; rw [outer_notice]; rfl
  · simp at h

theorem outer_moveStep {t : State} {m : Move} (h : s.moveStep m = some t) : t.outer = s.outer := by
  unfold State.moveStep at h
  split at h
  · simp at h; subst h; simp
  · split at h <;> simp at h; subst h; simp
  · simp at h
  · simp at h

theorem outer_engineStep {t : State} (h : s.engineStep = some t) : t.outer = s.outer := by
  unfold State.engineStep at h
  split at h
  · simp at h; subst h; simp
  · split at h
    · simp at h; subst h; simp
    · split at h
      · split at h
        · split at h
          · exact outer_moveStep s h
          · simp at h; subst h; simp
        · exact outer_moveStep s h
      · split at h
        · simp at h; subst h; simp
        · split at h <;> simp at h; subst h; simp
      · split at h
        · simp at h; subst h; simp
        · split at h <;> simp at h; subst h; simp
      · exact outer_moveStep s h
      · simp at h

theorem outer_heldStep {t : State} (h : s.heldStep = some t) : t.outer = s.outer := by
  unfold State.heldStep at h
  split at h
  · cases hm : s.fsq.move <;> rw [hm] at h
    · simp at h
    · exact outer_moveStep s h
  · simp at h

theorem outer_pump (n : Nat) : (s.pump n).outer = s.outer := by
  induction n generalizing s with
  | zero => rfl
  | succ n ih =>
    unfold State.pump
    split
    · rename_i h; rw [ih, outer_cutStep s h]
    · split
      · rename_i h
        rw [ih]
        split at h
        · exact outer_heldStep s h
        · exact outer_engineStep s h
      · rfl

/-- The engine leaves the start-up unit, the belt, the peers, the waiting samples and commands, the filters and the job. -/
@[simp] theorem State.engine_outer : s.engine.outer = s.outer := outer_pump s 16

@[simp] theorem State.engine_stu : s.engine.stu = s.stu := congrArg (·.1) s.engine_outer

@[simp] theorem State.engine_running : s.engine.running = s.running := by simp [State.running]

@[simp] theorem State.engine_peersChanged (s0 : State) : peersChanged s0 s.engine = peersChanged s0 s := by
  have h : s.engine.psr.peers = s.psr.peers := congrArg (·.2.2.1) s.engine_outer
  simp [peersChanged, h]

/-- R161, R165: all that a step fault of the feed engine does at each level. -/
theorem State.stepFeed_does (k : FaultKind) (ctx : Option Nat) : s.stepFeed k ctx =
    (let counted : Flt := { s.flt with
      further := min 255 (s.flt.further + 1), furtherSet := setBit s.flt.furtherSet (k.code - 1) true }
    match s.flt.level with
    | .normal => { s.holdFeed with
        mpt := raising s.mpt .alertEntered
        flt := { s.flt with
          level := .alert, further := 0, furtherSet := 0, feedPaused := some (k, s.fsq.st)
          alert := some ⟨k, .feed, .feed s.fsq.st, ctx, none, true⟩ } }
    | .alert => { s.holdFeed with flt := { counted with feedPaused := some (k, s.fsq.st) } }
    | .safe => { s with flt := counted }) := by
  obtain ⟨sig, bac, fsq, sfc, alc, psr, blt, uns, flt, mpt, stu, samples, bits, pending⟩ := s
  obtain ⟨level, alert, safe, further, set, feed, unload, last, notices⟩ := flt
  cases level <;> rfl

/-- An engine at rest does nothing. -/
theorem State.engine_rests (h : engineRests s = true) : s.engine = s := by
  unfold engineRests at h
  rw [Bool.and_eq_true, Option.isNone_iff_eq_none, Option.isNone_iff_eq_none] at h
  show s.pump (15 + 1) = s
  unfold State.pump
  rw [h.1]
  simp only [h.2]

/-- What a command of a running station leaves follows from its own effect and the engine. -/
theorem State.after_follows (force : Bool) (s0 u : State) (hr : u.running = true) :
    Follows force s0 u.engine (State.after force s0 u) :=
  State.conclude_follows force s0 u.engine (by rw [State.engine_running]; exact hr)

/-- A command of a running station whose own effect is `f`. -/
theorem State.inService_follows (s0 s : State) (f : State → State) (hs : s.running = true) (hf : (f s).running = true) :
    Follows false s0 (f s).engine (State.inService s0 s f) := by
  unfold State.inService; rw [if_pos hs]; exact State.after_follows false s0 (f s) hf

end Sys2Proof.Machine
end

