-- ==== Sys2Proof/Laws/Belt.lean ====
section
/-! SUPPORT. What the belt pulses leave alone, said once: the tracker and the unload sequencer's part in it change the belt, the
claims, the line's queue and doubt, and the notices; an advance also the gate, the confirmation and what ends with it. -/
namespace Sys2Proof.Machine

open Sys2Proof.Safety

/-- The sources a belt pulse may raise. -/
def beltSources : List EventSrc := [.lineNotice, .partMissing, .beltSynced, .alertEntered]

/-- The state with the fields blanked that the belt tracker may change. -/
def pulseBase (s : State) : State :=
  { s with
    blt := Blt.reset
    alc := { s.alc with queue := [], doubt := false }
    mpt := { s.mpt with sources := Vector.ofFn fun i : Fin 16 =>
      if i ∈ beltSources.map EventSrc.idx then { priority := 0, pending := false, inService := false } else s.mpt.sources[i] }
    flt := { s.flt with last := none, notices := 0 }
    uns := { s.uns with closing := [], active := [] } }

/-- The same, with the gate, the confirmation and the yield counter, which an advance may change. -/
def advanceBase (s : State) : State :=
  let s := pulseBase s
  { s with uns := { s.uns with gate := none, confirm := none, yield := 0 } }

/-- The same, with what the end of a drop confirmation may change. -/
def confirmBase (s : State) : State :=
  let s := advanceBase s
  { s with
    flt := { s.flt with level := .normal, alert := none, further := 0, furtherSet := 0, unloadPaused := none }
    uns := { s.uns with hold := [], dropped := 0 } }

variable (s : State)

theorem pulseBase_raise {e : EventSrc} (h : e ∈ beltSources) : pulseBase (s.raise e) = pulseBase s := by
  have : (Vector.ofFn fun i : Fin 16 =>
      if i ∈ beltSources.map EventSrc.idx then { priority := 0, pending := false, inService := false }
      else (s.raise e).mpt.sources[i]) = Vector.ofFn fun i : Fin 16 =>
      if i ∈ beltSources.map EventSrc.idx then { priority := 0, pending := false, inService := false }
      else s.mpt.sources[i] := by
    congr 1; funext i
    split
    · rfl
    · rename_i hi
      rw [State.raise_source, if_neg]
      rintro rfl; exact hi (List.mem_map_of_mem h)
  show ({ pulseBase s with mpt := _ } : State) = pulseBase s
  unfold pulseBase
  rw [this]; rfl

theorem pulseBase_notice {k : FaultKind} {e : EventSrc} (c : Option Nat) (hk : k.source = some e) (h : e ∈ beltSources) :
    pulseBase (s.notice k c) = pulseBase s := by
  unfold State.notice; simp only [hk]; rw [pulseBase_raise _ h]; rfl

theorem pulseBase_onlyIf (c : Bool) (f : State → State) (h : pulseBase (f s) = pulseBase s) :
    pulseBase (s.onlyIf c f) = pulseBase s := by cases c <;> simp [State.onlyIf, h]

theorem pulseBase_request (k : TxKind) : pulseBase (s.request k) = pulseBase s := by
  obtain ⟨q, h⟩ := State.request_shape s k; rw [h]; rfl

theorem pulseBase_foldl {α : Type} (f : State → α → State) (h : ∀ s x, pulseBase (f s x) = pulseBase s) (l : List α) :
    pulseBase (l.foldl f s) = pulseBase s := by
  induction l generalizing s with
  | nil => rfl
  | cons x xs ih => rw [List.foldl_cons, ih, h]

theorem pulseBase_endQueued (p : Nat) : pulseBase (s.endQueued p) = pulseBase s := by
  unfold State.endQueued; simp only; split <;> rfl

theorem pulseBase_reportEntry (p : Nat) (e : Entry) : pulseBase (s.reportEntry p e) = pulseBase s := by
  unfold State.reportEntry
  repeat' split
  all_goals first | rfl | exact pulseBase_endQueued _ _

theorem pulseBase_setEntry (p : Nat) (e : Entry) : pulseBase (s.setEntry p e) = pulseBase s := by
  unfold State.setEntry; split
  · rfl
  · rw [pulseBase_reportEntry]; rfl

theorem pulseBase_resync : pulseBase s.resync = pulseBase s := by
  unfold State.resync State.reportResync
  simp only
  show pulseBase (State.onUns _ _) = _
  refine Eq.trans (b := pulseBase (List.foldl _ _ _)) rfl ?_
  rw [pulseBase_foldl]
  · rfl
  · intro s x; rfl

theorem pulseBase_pairedHome : pulseBase s.pairedHome = pulseBase s := by
  unfold State.pairedHome
  split
  · rfl
  · rfl
  · show pulseBase (State.onBlt _ _) = _
    refine Eq.trans (b := pulseBase (State.resync _)) rfl ?_
    rw [pulseBase_resync, pulseBase_notice _ _ rfl (by decide)]

/-- R115, R121: what closing the window leaves. -/
theorem pulseBase_closeWindow : pulseBase s.closeWindow = pulseBase s := by
  unfold State.closeWindow
  split
  · rfl
  · rw [pulseBase_onlyIf]
    · rfl
    · unfold State.homeMiss; simp only
      rw [pulseBase_onlyIf _ _ _ (pulseBase_notice _ _ rfl (by decide))]; rfl

/-- R115, R122: what a HOME edge leaves. -/
theorem pulseBase_takeHome : pulseBase s.takeHome = pulseBase s := by
  unfold State.takeHome
  split
  · exact pulseBase_notice _ _ rfl (by decide)
  · split
    · split
      · exact pulseBase_notice _ _ rfl (by decide)
      · rw [pulseBase_pairedHome]; rfl
    · rfl

/-! ## The advance -/

theorem advanceBase_of_pulseBase {s t : State} (h : pulseBase s = pulseBase t) : advanceBase s = advanceBase t := by
  unfold advanceBase; rw [h]

theorem confirmBase_of_advanceBase {s t : State} (h : advanceBase s = advanceBase t) : confirmBase s = confirmBase t := by
  unfold confirmBase; rw [h]

theorem advanceBase_onUns (f : Uns → Uns)
    (h : ({ f s.uns with closing := [], active := [], gate := none, confirm := none, yield := 0 } : Uns) =
      { s.uns with closing := [], active := [], gate := none, confirm := none, yield := 0 }) :
    advanceBase (s.onUns f) = advanceBase s := by
  show ({ advanceBase s with uns := _ } : State) = _
  exact congrArg (fun u => ({ advanceBase s with uns := u } : State)) h

theorem pulseBase_releaseActive (p : Nat) : pulseBase (s.releaseActive p) = pulseBase s := by
  unfold State.releaseActive State.askRelease; simp only
  split
  · refine Eq.trans (b := pulseBase (State.request _ _)) rfl ?_
    rw [pulseBase_request]; rfl
  · rfl

theorem advanceBase_arrivals : advanceBase s.arrivals = advanceBase s := by
  unfold State.arrivals
  split
  · split
    · unfold State.arrive
      split
      · rfl
      all_goals
        split
        · rfl
        · refine advanceBase_of_pulseBase ?_
          rw [pulseBase_releaseActive, pulseBase_notice _ _ rfl (by decide)]
        · exact advanceBase_of_pulseBase (pulseBase_releaseActive _ _)
    · rfl
  · rfl

theorem advanceBase_select (n : Nat) : advanceBase (State.select n s) = advanceBase s := by
  obtain ⟨a, y, q, h⟩ := State.select_shape n s
  rw [h]; rfl

theorem confirmBase_askDrop (p : Nat) (m : Mark) (q : Word16) : confirmBase (s.askDrop p m q) = confirmBase s := by
  unfold State.askDrop; split
  · refine Eq.trans (b := confirmBase (State.request _ _)) rfl ?_
    exact confirmBase_of_advanceBase (advanceBase_of_pulseBase (pulseBase_request _ _))
  · unfold Uns.dropOver State.onUns
    dsimp only
    split
    · split
      · unfold Uns.recordLeaves; split <;> rfl
      · rfl
    · rfl

theorem confirmBase_askRelease (p : Nat) : confirmBase (s.askRelease p) = confirmBase s := by
  unfold State.askRelease; split
  · refine Eq.trans (b := confirmBase (State.request _ _)) rfl ?_
    exact confirmBase_of_advanceBase (advanceBase_of_pulseBase (pulseBase_request _ _))
  · rfl

theorem confirmBase_stepUnload (p : Nat) (o : DropOutcome) : confirmBase (s.stepUnload p o) = confirmBase s := by
  have raised : ∀ t : State, confirmBase (t.raise .alertEntered) = confirmBase t := fun t =>
    confirmBase_of_advanceBase (advanceBase_of_pulseBase (pulseBase_raise t (by decide)))
  unfold State.stepUnload
  cases h : s.flt.level <;> simp only [State.onlyIf, Flt.takeStep, State.onFlt, h]
  · exact raised _
  · rfl
  · rfl

/-- R151, R152: what the end of a drop confirmation leaves. -/
theorem confirmBase_endConfirm (seen : Bool) : confirmBase (s.endConfirm seen) = confirmBase s := by
  unfold State.endConfirm
  simp only
  split
  · rfl
  · split
    · rw [confirmBase_askDrop]; rfl
    · split
      · rw [confirmBase_stepUnload, confirmBase_askRelease]; rfl
      · rw [confirmBase_stepUnload, confirmBase_askDrop]; rfl

/-- R148: what the report of an advance leaves, with a drop confirmation running and without one. -/
theorem State.unsAdvance_leaves :
    confirmBase s.unsAdvance = confirmBase s ∧ (s.uns.confirm = none → advanceBase s.unsAdvance = advanceBase s) := by
  have rest : ∀ v : State, advanceBase (State.select Config.claimCapacity
      (let v := v.onUns fun u => { u with gate := none }
       let short := v.uns.active.filter fun c => c.stage == .queued && (v.arrival c.pocket).getD 0 < v.cfg.lmin
       ((short.foldl (fun s c => s.endQueued c.pocket) v).rearm).arrivals)) = advanceBase v := by
    intro v
    rw [advanceBase_select, advanceBase_arrivals]
    refine Eq.trans (b := advanceBase (List.foldl _ _ _)) rfl ?_
    refine (advanceBase_of_pulseBase (pulseBase_foldl _ _ (fun s (c : ActiveClaim) => pulseBase_endQueued s c.pocket) _)).trans rfl
  have eq : s.unsAdvance = State.select Config.claimCapacity
      (let v := ((s.onUns fun u => { u with yield := u.yield - 1 }).onlyIf s.uns.confirm.isSome fun s => s.endConfirm false).onUns
        fun u => { u with gate := none }
       let short := v.uns.active.filter fun c => c.stage == .queued && (v.arrival c.pocket).getD 0 < v.cfg.lmin
       ((short.foldl (fun s c => s.endQueued c.pocket) v).rearm).arrivals) := rfl
  rw [eq]
  refine ⟨(confirmBase_of_advanceBase (rest _)).trans ?_, fun h => (rest _).trans ?_⟩
  · cases s.uns.confirm.isSome
    · rfl
    · exact (confirmBase_endConfirm _ _).trans rfl
  · rw [h]; rfl

theorem State.advance_leaves :
    confirmBase s.advance = confirmBase s ∧ (s.uns.confirm = none → advanceBase s.advance = advanceBase s) := by
  have step : ∀ v : State, pulseBase v = pulseBase s → confirmBase v.unsAdvance = confirmBase s ∧
      (s.uns.confirm = none → advanceBase v.unsAdvance = advanceBase s) := by
    intro v hv
    have hc : v.uns.confirm = s.uns.confirm := congrArg (·.uns.confirm) hv
    exact ⟨v.unsAdvance_leaves.1.trans (confirmBase_of_advanceBase (advanceBase_of_pulseBase hv)),
      fun h => (v.unsAdvance_leaves.2 (hc.trans h)).trans (advanceBase_of_pulseBase hv)⟩
  unfold State.advance
  simp only
  split
  · exact ⟨rfl, fun _ => rfl⟩
  · apply step
    split
    · unfold State.becomeSynced; simp only
      rw [pulseBase_raise _ (by decide)]
      refine Eq.trans (b := pulseBase (State.setEntry _ _ _)) rfl ?_
      rw [pulseBase_setEntry]; rfl
    · rw [pulseBase_setEntry]; rfl
  · apply step; rw [pulseBase_setEntry]; rfl

/-- R115, R116: what an INDEX edge leaves. -/
theorem State.takeIndex_leaves :
    confirmBase s.takeIndex = confirmBase s ∧ (s.uns.confirm = none → advanceBase s.takeIndex = advanceBase s) := by
  have last : pulseBase s.takeIndex = pulseBase s.closeWindow.advance := by
    unfold State.takeIndex; simp only; split
    · rw [pulseBase_pairedHome]; rfl
    · rfl
  have hw := pulseBase_closeWindow s
  have hc : s.closeWindow.uns.confirm = s.uns.confirm := congrArg (·.uns.confirm) hw
  have h := s.closeWindow.advance_leaves
  exact ⟨(confirmBase_of_advanceBase (advanceBase_of_pulseBase last)).trans
      (h.1.trans (confirmBase_of_advanceBase (advanceBase_of_pulseBase hw))),
    fun n => (advanceBase_of_pulseBase last).trans ((h.2 (hc.trans n)).trans (advanceBase_of_pulseBase hw))⟩

/-! ## What equal bases say -/

/-- Equal bases of an advance: these fields alone differ. -/
theorem shape_of_confirmBase {u v : State} (h : confirmBase u = confirmBase v) : u = { v with
    blt := u.blt, alc := { v.alc with queue := u.alc.queue, doubt := u.alc.doubt }
    mpt := { v.mpt with sources := u.mpt.sources }
    flt := { v.flt with
      level := u.flt.level, alert := u.flt.alert, further := u.flt.further, furtherSet := u.flt.furtherSet
      unloadPaused := u.flt.unloadPaused, last := u.flt.last, notices := u.flt.notices }
    uns := { v.uns with
      hold := u.uns.hold, closing := u.uns.closing, active := u.uns.active, gate := u.uns.gate
      confirm := u.uns.confirm, yield := u.uns.yield, dropped := u.uns.dropped } } := by
  obtain ⟨sig, bac, fsq, sfc, alc, psr, blt, uns, flt, mpt, stu, samples, bits, pending⟩ := u
  obtain ⟨⟩ := alc; obtain ⟨⟩ := uns; obtain ⟨⟩ := flt; obtain ⟨⟩ := mpt
  obtain ⟨sig', bac', fsq', sfc', alc', psr', blt', uns', flt', mpt', stu', samples', bits', pending'⟩ := v
  obtain ⟨⟩ := alc'; obtain ⟨⟩ := uns'; obtain ⟨⟩ := flt'; obtain ⟨⟩ := mpt'
  simp only [confirmBase, advanceBase, pulseBase, State.mk.injEq, Alc.mk.injEq, Uns.mk.injEq, Flt.mk.injEq, Mpt.mk.injEq,
    true_and, and_true] at h ⊢
  simp_all

/-- Without a drop confirmation that ends, the fault record has another last notice at most, and the records stand. -/
theorem shape_of_advanceBase {u v : State} (h : advanceBase u = advanceBase v) :
    u.flt = { v.flt with last := u.flt.last, notices := u.flt.notices } ∧ u.uns.hold = v.uns.hold ∧
      u.uns.dropped = v.uns.dropped := by
  refine ⟨?_, congrArg (·.uns.hold) h, congrArg (·.uns.dropped) h⟩
  have := congrArg (·.flt) h
  cases hu : u.flt; cases hv : v.flt
  simp_all [advanceBase, pulseBase]

/-- But for an advance, the claims alone differ in the unload sequencer. -/
theorem shape_of_pulseBase {u v : State} (h : pulseBase u = pulseBase v) :
    u.uns = { v.uns with closing := u.uns.closing, active := u.uns.active } := by
  have := congrArg (·.uns) h
  cases hu : u.uns; cases hv : v.uns
  simp_all [pulseBase]

/-- The sources a belt pulse may raise are the only ones it touches. -/
theorem beltSources_leave {s t : State} (h : confirmBase t = confirmBase s) (e : EventSrc) (he : e ∉ beltSources) :
    t.mpt.sources[e.idx] = s.mpt.sources[e.idx] := by
  have hm := congrArg (fun x : State => x.mpt.sources[e.idx]) h
  have hi : ¬∃ f, f ∈ beltSources ∧ f.idx = e.idx := fun ⟨f, hf, hx⟩ => he (EventSrc.idx_injective f e hx ▸ hf)
  simpa [confirmBase, advanceBase, pulseBase, hi] using hm

end Sys2Proof.Machine
end

