-- ==== Sys2Proof/Laws/Queue.lean ====
section
/-! SUPPORT. What an owner does with its telegram that has left the transmit queue, what a clear of the queue tells all
of them, and what a resync does, each said once. -/
namespace Sys2Proof.Machine

open Sys2Proof.Safety

/-- A stage asked of the first entry of a pocket. -/
theorem Uns.closeStageOf_eq (u : Uns) (p : Nat) (st : CloseStage) :
    (u.closeStageOf p == some st) = decide ((u.closing.find? (·.pocket == p)).map (·.stage) = some st) := by
  unfold Uns.closeStageOf
  by_cases h : (u.closing.find? (·.pocket == p)).map (·.stage) = some st <;> simp [h]

theorem Uns.stageOf_eq (u : Uns) (p : Nat) (st : ClaimStage) :
    (u.stageOf p == some st) = decide (u.active.find? (·.pocket == p) = some ⟨p, st⟩) := by
  unfold Uns.stageOf
  cases h : u.active.find? (·.pocket == p) with
  | none => simp
  | some c =>
    have hp : c.pocket = p := by simpa using List.find?_some h
    obtain ⟨q, g⟩ := c
    simp only at hp
    subst hp
    by_cases hg : g = st <;> simp [hg]

theorem Uns.dropOver_eq (u : Uns) (p : Nat) :
    u.dropOver p = { u with
      closing := u.closing.filter (·.pocket != p)
      hold := u.hold.eraseP fun r => (u.closing.find? (·.pocket == p)).bind (·.bound) == some r.seq
      dropped := if ∃ r ∈ u.hold, (u.closing.find? (·.pocket == p)).bind (·.bound) = some r.seq then u.dropped + 1
        else u.dropped } := by
  unfold Uns.dropOver
  cases h : u.closing.find? (·.pocket == p) with
  | none =>
    have hf : u.closing.filter (·.pocket != p) = u.closing := by
      rw [List.filter_eq_self]; intro c hc
      have := List.find?_eq_none.mp h c hc
      simpa [bne] using this
    simp [hf, List.eraseP_of_forall_not]
  | some c =>
    cases hb : c.bound with
    | none => simp [hb, Uns.dropClosing, List.eraseP_of_forall_not]
    | some q =>
      have key : (fun r : PartRec => some q == some r.seq) = fun r => r.seq == q := by
        funext r; exact BEq.comm
      by_cases hq : ∃ r ∈ u.hold, r.seq = q
      · have hany : u.hold.any (·.seq == q) = true := by simpa using hq
        have hq' : ∃ r ∈ u.hold, q = r.seq := by obtain ⟨r, hr, rfl⟩ := hq; exact ⟨r, hr, rfl⟩
        simp only [Option.bind_some, hb, Uns.dropClosing, Uns.recordLeaves, hany, key, if_true, Option.some.injEq, hq']
      · have hany : u.hold.any (·.seq == q) = false := by simpa using hq
        have hq' : ¬∃ r ∈ u.hold, q = r.seq := fun ⟨r, hr, h⟩ => hq ⟨r, hr, h.symm⟩
        have he : u.hold.eraseP (·.seq == q) = u.hold := List.eraseP_of_forall_not (by simpa using hq)
        simp only [Option.bind_some, hb, Uns.dropClosing, Uns.recordLeaves, hany, key, if_false, Bool.false_eq_true,
          Option.some.injEq, hq', he]

/-- R79, R89, R102, R146, R152: an owner told that its telegram has left the queue without completing. -/
theorem State.tellUnsent_told (s : State) (k : TxKind) : Told k s (s.tellUnsent k) := by
  have t (k : TxKind) (h : k ≠ .dispatch) : s.tellUnsent k = s.unsent k := if_neg h
  cases k with
  | presence => exact t .presence (by decide)
  | dispatch =>
    have h : s.tellUnsent .dispatch = s.dispatchUnsent := if_pos rfl
    rw [h]; unfold State.dispatchUnsent Told
    by_cases h : s.psr.dispatch = .queued
    · simp [State.onlyIf, State.onPsr, h]
    · have hb : (s.psr.dispatch == .queued) = false := by simpa using h
      simp only [State.onlyIf, hb, cond_false, h, if_false]
  | release p =>
    rw [t _ (by simp)]; unfold State.unsent Told
    by_cases h : (s.uns.closing.find? (·.pocket == p)).map (·.stage) = some .awaitRelease <;>
      simp only [Uns.closeStageOf_eq, State.onlyIf, State.onUns, h, Uns.dropClosing, if_true, if_false, decide_true, decide_false,
        cond_true, cond_false]
  | claim p =>
    rw [t _ (by simp)]; unfold State.unsent Told
    by_cases ha : s.uns.active.find? (·.pocket == p) = some ⟨p, .queued⟩ <;>
      by_cases hc : (s.uns.closing.find? (·.pocket == p)).map (·.stage) = some .awaitClaim <;>
      simp only [State.onlyIf, State.onUns, Uns.dropClosing, Uns.dropActive, Uns.stageOf_eq, Uns.closeStageOf_eq, ha, hc,
        if_true, if_false, decide_true, decide_false, cond_true, cond_false]
  | drop p m n =>
    rw [t _ (by simp)]; unfold State.unsent Told
    by_cases h : (s.uns.closing.find? (·.pocket == p)).map (·.stage) = some .awaitDrop
    · simp only [Uns.closeStageOf_eq, State.onlyIf, State.onUns, h, decide_true, cond_true, Uns.dropOver_eq, if_true]
    · simp [Uns.closeStageOf_eq, State.onlyIf, h, List.eraseP_of_forall_not]

/-- R89: the CLAIMs of several claims removed one after the other: all of them leave, one in flight at the end of its attempt. -/
theorem State.removeClaims (l : List ActiveClaim) (s : State) :
    l.foldl (fun s c => s.removeTx (.claim c.pocket)) s = s.onAlc fun a => { a with queue :=
      (a.queue.filter fun e => !(l.any fun c => e.kind == .claim c.pocket) || e.inFlight).map fun e =>
        if (l.any fun c => e.kind == .claim c.pocket) = true then { e with leaving := true } else e } := by
  induction l generalizing s with
  | nil =>
    have h : s.alc.queue.filter (fun _ => true) = s.alc.queue := List.filter_eq_self.mpr fun _ _ => rfl
    simp [State.onAlc, h]
  | cons c l ih =>
    rw [List.foldl_cons, ih]
    unfold State.removeTx State.onAlc
    simp only [List.any_cons]
    congr 2
    induction s.alc.queue with
    | nil => rfl
    | cons e q hq =>
      cases hk : e.kind == .claim c.pocket <;> cases hl : (l.any fun c => e.kind == .claim c.pocket) <;> cases hf : e.inFlight <;>
        simp_all [bne]

/-- R81, R128, R156: all that a resync does. -/
theorem State.resync_does (s : State) : s.resync = resynced s := by
  unfold State.resync State.reportResync resynced
  simp only [State.removeClaims]
  simp only [State.onAlc, State.onBlt, State.onUns, State.inFlight, List.any_filter]
  congr 2
  congr 2
  · funext c; by_cases h : c.stage = .dropping <;> simp [h]
  · rw [List.filter_filter]; congr 1; funext c; exact Bool.and_comm _ _

/-- R90: the owners of several telegrams told one after the other. -/
theorem State.tellAll (ks : List TxKind) (s : State) : ToldAll ks s (ks.foldl State.tellUnsent s) := by
  induction ks generalizing s with
  | nil => exact rfl
  | cons k ks ih => exact ⟨_, s.tellUnsent_told k, ih _⟩

/-- R90: all that the clear does but for telling the owners. -/
theorem State.emptyQueue_does (s : State) : s.emptyQueue = { s with alc := { s.alc with queue := [], unit := clearedUnit s.alc } } := by
  have h : (if s.alc.flying.isSome then s.alc.unit.cutOff else s.alc.unit) = clearedUnit s.alc := by
    unfold clearedUnit Alc.flying
    by_cases h : ∃ e ∈ s.alc.queue, e.inFlight = true
    · have h2 : (s.alc.queue.find? (·.inFlight)).isSome = true := by simpa using h
      rw [if_pos h2, if_pos h]
      unfold LineUnit.cutOff
      cases s.alc.unit.rx with
      | free s => rfl
      | passing l k => rfl
      | reading bits k =>
        cases bits with
        | nil => simp
        | cons b bits => by_cases hc : (placeOf (b :: bits)).count ≤ 16 <;> simp [arbitrated, hc] <;> omega
    · have h2 : ¬(s.alc.queue.find? (·.inFlight)).isSome = true := by simpa using h
      rw [if_neg h2, if_neg h]
  rw [← h]; rfl

/-- R160: all that a notice does. -/
theorem State.notice_does (s : State) (k : FaultKind) (c : Option Nat) (e : EventSrc) (h : k.source = some e) :
    s.notice k c = noticed s k c e := by
  unfold State.notice; simp only [h]; rfl

/-- R90: a clear empties the transmit queue and tells the owner of every entry. -/
theorem State.clearQueue_told (s : State) : ToldAll (s.alc.queue.map (·.kind)) s.emptyQueue s.clearQueue := by
  have := State.tellAll (s.alc.queue.map (·.kind)) s.emptyQueue
  rwa [List.foldl_map] at this

end Sys2Proof.Machine
end

