-- ==== Sys2Proof/Laws/Safe.lean ====
section
/-! SUPPORT. What SAFE entry makes of the claim table, the records and the transmit queue, said once (R90, R152, R155). -/
namespace Sys2Proof.Machine
open Sys2Proof.Safety

/-- The state with this claim table, these records and this transmit queue. -/
def State.withClaims (s : State) (u : Uns) (q : List TxEntry) : State := { s with uns := u, alc := { s.alc with queue := q } }

/-- The state with these entries and records. -/
abbrev State.closings (s : State) (C : List ClosingClaim) (h : List PartRec) (d : Word32) (q : List TxEntry) : State :=
  s.withClaims { s.uns with closing := C, hold := h, dropped := d } q

/-- The state with these entries and active claims. -/
abbrev State.actives (s : State) (C : List ClosingClaim) (L : List ActiveClaim) (q : List TxEntry) : State :=
  s.withClaims { s.uns with closing := C, active := L } q

/-- The entry of a RELEASE just asked for (R73, R86, section 12.1). -/
def State.releaseEntry (s : State) (p : Nat) : TxEntry := ⟨.release p, s.own, [2, .ofNat 8 p], 0, false, false, false⟩

/-- R86: an entry with no greater value before it stands at the tail. -/
theorem insertEntry_last (e : TxEntry) (q : List TxEntry) (h : ∀ x ∈ q, x.value ≤ e.value) :
    insertEntry e q = q ++ [e] := by
  induction q with
  | nil => rfl
  | cons x xs ih =>
    have hx := h x (by simp)
    unfold insertEntry
    rw [if_neg (by omega), ih fun y hy => h y (by simp [hy]), List.cons_append]

/-- R86: a RELEASE asked for joins the tail of a queue of RELEASEs. -/
theorem State.request_release (s : State) (u : Uns) (q : List TxEntry) (p : Nat) (hn : q.length < 8)
    (ha : s.alc.st.accepts = true) (hv : ∀ e ∈ q, e.value = s.own) :
    (s.withClaims u q).request (.release p) = s.withClaims u (q ++ [s.releaseEntry p]) := by
  unfold State.request State.accepts State.withClaims
  have h8 : q.length < Config.queueCapacity := hn
  simp only [ha, h8, decide_true, Bool.true_and, if_true, Bool.and_true]
  rw [if_neg (by simp)]
  simp only [State.onAlc]
  rw [insertEntry_last]
  · simp [State.releaseEntry, State.payloadOf, State.valueOf, arbitration, State.own, byteOf]
  · intro x hx; simp [hv x hx, State.valueOf, arbitration, State.own]

/-- The queue of RELEASEs with one more. -/
theorem State.release_values (s : State) (q : List TxEntry) (p : Nat) (hv : ∀ e ∈ q, e.value = s.own) :
    ∀ e ∈ q ++ [s.releaseEntry p], e.value = s.own := by
  intro e he
  rcases List.mem_append.mp he with h | h
  · exact hv e h
  · rw [List.mem_singleton.mp h]; rfl

/-- One entry of the table gets its stage where it stands alone for its pocket. -/
theorem Uns.setClosing_at (u : Uns) (A B : List ClosingClaim) (c : ClosingClaim) (st : CloseStage) (b : Option Word16)
    (h : u.closing = A ++ c :: B) (hA : ∀ x ∈ A, x.pocket ≠ c.pocket) (hB : ∀ x ∈ B, x.pocket ≠ c.pocket) :
    u.setClosing c.pocket st b = { u with closing := A ++ ⟨c.pocket, st, b⟩ :: B } := by
  have side (l : List ClosingClaim) (hl : ∀ x ∈ l, x.pocket ≠ c.pocket) :
      (l.map fun x => if x.pocket == c.pocket then { x with stage := st, bound := b } else x) = l :=
    (List.map_congr_left fun x hx => by simp [hl x hx]).trans (List.map_id l)
  unfold Uns.setClosing
  rw [h, List.map_append, List.map_cons, side A hA, side B hB]; simp

/-- The entry of a pocket that stands alone for it leaves the table. -/
theorem closing_filter_at (A B : List ClosingClaim) (c : ClosingClaim) (hA : ∀ x ∈ A, x.pocket ≠ c.pocket)
    (hB : ∀ x ∈ B, x.pocket ≠ c.pocket) : (A ++ c :: B).filter (·.pocket != c.pocket) = A ++ B := by
  rw [List.filter_append, List.filter_cons_of_neg (by simp), List.filter_eq_self.mpr (by simpa using hA),
    List.filter_eq_self.mpr (by simpa using hB)]

/-- The entry of a pocket that stands alone for it is the first one found. -/
theorem closing_find?_at (A B : List ClosingClaim) (c : ClosingClaim) (hA : ∀ x ∈ A, x.pocket ≠ c.pocket) :
    (A ++ c :: B).find? (·.pocket == c.pocket) = some c := by
  rw [List.find?_append, List.find?_eq_none.mpr (by simpa using hA)]; simp

/-- R155: what SAFE entry leaves of the records behind these entries. -/
def safeHold (cs : List ClosingClaim) (h : List PartRec) : List PartRec :=
  (cs.filter (·.stage == .awaitDrop)).foldl (fun h c => h.eraseP fun r => c.bound == some r.seq) h

/-- R155: what SAFE entry makes of a DROPPING or CLOSING entry. -/
def safeEntry (takes : Bool) (c : ClosingClaim) : Option ClosingClaim :=
  match c.stage with
  | .dropping => some { c with stage := .awaitConfirm }
  | .awaitConfirm => some c
  | .awaitRelease => if takes then some ⟨c.pocket, .awaitRelease, none⟩ else none
  | .awaitDrop => none
  | .awaitClaim => none

/-- No record joins. -/
theorem safeHold_length (cs : List ClosingClaim) (h : List PartRec) : (safeHold cs h).length ≤ h.length := by
  unfold safeHold
  induction cs.filter (·.stage == .awaitDrop) generalizing h with
  | nil => exact Nat.le_refl _
  | cons c cs ih => exact Nat.le_trans (ih _) (List.length_eraseP_le ..)

/-- R152: the dropped total rises by the records that leave. -/
theorem dropped_eraseP (h : List PartRec) (b : Option Word16) (d : Word32) :
    (if ∃ r ∈ h, b = some r.seq then d + 1 else d) =
      d + BitVec.ofNat 32 (h.length - (h.eraseP fun r => b == some r.seq).length) := by
  by_cases hx : ∃ r ∈ h, b = some r.seq
  · obtain ⟨r, hr, hb⟩ := hx
    rw [if_pos ⟨r, hr, hb⟩, List.length_eraseP_of_mem hr (by simp [hb])]
    have : 0 < h.length := List.length_pos_of_mem hr
    rw [show h.length - (h.length - 1) = 1 by omega]; rfl
  · rw [if_neg hx, List.eraseP_of_forall_not]
    · simp
    · intro r hr; simp only [Bool.not_eq_true, beq_eq_false_iff_ne]; exact fun e => hx ⟨r, hr, e⟩

/-- R155: the DROPPING and CLOSING entries at SAFE entry. -/
theorem State.safeClosings (s : State) (B A : List ClosingClaim) (h : List PartRec) (d : Word32) (q : List TxEntry)
    (hn : q.length + B.length ≤ 8) (hv : ∀ e ∈ q, e.value = s.own) (hp : ((A ++ B).map (·.pocket)).Nodup) :
    B.foldl State.safeClosing (s.closings (A ++ B) h d q) =
      s.withClaims { s.uns with
          closing := A ++ B.filterMap (safeEntry s.alc.st.accepts), hold := safeHold B h
          dropped := d + BitVec.ofNat 32 (h.length - (safeHold B h).length) }
        (q ++ if s.alc.st.accepts then ((B.filter (·.stage == .awaitRelease)).map (·.pocket)).map s.releaseEntry else []) := by
  induction B generalizing A h d q with
  | nil => simp [safeHold]
  | cons c B ih =>
    have hA : ∀ x ∈ A, x.pocket ≠ c.pocket := by
      intro x hx e
      simp only [List.map_append, List.map_cons, List.nodup_append, List.mem_map, List.mem_cons] at hp
      exact hp.2.2 _ ⟨x, hx, rfl⟩ _ (.inl rfl) e
    have hB : ∀ x ∈ B, x.pocket ≠ c.pocket := by
      intro x hx e
      simp only [List.map_append, List.map_cons, List.nodup_append, List.nodup_cons, List.mem_map] at hp
      exact hp.2.1.1 ⟨x, hx, e⟩
    have hout : ((A ++ B).map (·.pocket)).Nodup := by
      refine List.Nodup.sublist (List.Sublist.map _ (List.Sublist.append (List.Sublist.refl A) (List.sublist_cons_self c B))) hp
    have hin (c' : ClosingClaim) (e : c'.pocket = c.pocket) : (((A ++ [c']) ++ B).map (·.pocket)).Nodup := by
      simpa [e] using hp
    have hn' : q.length + B.length ≤ 8 := by simp at hn; omega
    obtain ⟨p, st, b⟩ := c
    rw [List.foldl_cons]
    cases st with
    | dropping =>
      have e : State.safeClosing (s.closings (A ++ ⟨p, .dropping, b⟩ :: B) h d q)
          ⟨p, .dropping, b⟩ =
          s.closings ((A ++ [⟨p, .awaitConfirm, b⟩]) ++ B) h d q := by
        have := Uns.setClosing_at { s.uns with closing := A ++ ⟨p, .dropping, b⟩ :: B, hold := h, dropped := d } A B
          ⟨p, .dropping, b⟩ .awaitConfirm b rfl hA hB
        simp only [State.safeClosing, State.closings, State.withClaims, State.onUns]
        rw [this]; simp
      rw [e, ih (A ++ [⟨p, .awaitConfirm, b⟩]) h d q hn' hv (hin _ rfl)]
      simp [safeEntry, safeHold]
    | awaitConfirm =>
      have e : State.safeClosing (s.closings (A ++ ⟨p, .awaitConfirm, b⟩ :: B) h d q)
          ⟨p, .awaitConfirm, b⟩ =
          s.closings ((A ++ [⟨p, .awaitConfirm, b⟩]) ++ B) h d q := by
        simp [State.safeClosing]
      rw [e, ih (A ++ [⟨p, .awaitConfirm, b⟩]) h d q hn' hv (hin _ rfl)]
      simp [safeEntry, safeHold]
    | awaitClaim =>
      have e : State.safeClosing (s.closings (A ++ ⟨p, .awaitClaim, b⟩ :: B) h d q)
          ⟨p, .awaitClaim, b⟩ = s.closings (A ++ B) h d q := by
        have := closing_filter_at A B ⟨p, .awaitClaim, b⟩ hA hB
        simp only [State.safeClosing, State.closings, State.withClaims, State.onUns, Uns.dropClosing] at this ⊢
        rw [this]
      rw [e, ih _ h d q hn' hv hout]
      simp [safeEntry, safeHold, List.filterMap_cons]
    | awaitDrop =>
      have e : State.safeClosing (s.closings (A ++ ⟨p, .awaitDrop, b⟩ :: B) h d q)
          ⟨p, .awaitDrop, b⟩ = s.withClaims { s.uns with
            closing := A ++ B, hold := (h.eraseP fun r => b == some r.seq)
            dropped := d + BitVec.ofNat 32 (h.length - (h.eraseP fun r => b == some r.seq).length) } q := by
        have h1 := closing_filter_at A B ⟨p, .awaitDrop, b⟩ hA hB
        have h2 := closing_find?_at A B ⟨p, .awaitDrop, b⟩ hA
        simp only [State.safeClosing, State.closings, State.withClaims, State.onUns, Uns.dropOver_eq] at h1 h2 ⊢
        rw [h1, h2]
        simp only [Option.bind_some]
        rw [dropped_eraseP]
      rw [e, ih _ (h.eraseP fun r => b == some r.seq) _ q hn' hv hout]
      have hh : safeHold (⟨p, .awaitDrop, b⟩ :: B) h = safeHold B (h.eraseP fun r => b == some r.seq) := by simp [safeHold]
      have l1 : (h.eraseP fun r => b == some r.seq).length ≤ h.length := List.length_eraseP_le ..
      have l2 := safeHold_length B (h.eraseP fun r => b == some r.seq)
      rw [hh, BitVec.add_assoc, ← BitVec.ofNat_add, Nat.sub_add_sub_cancel l1 l2]
      simp [safeEntry, List.filterMap_cons]
    | awaitRelease =>
      cases ht : s.alc.st.accepts with
      | false =>
        have e : State.safeClosing (s.closings (A ++ ⟨p, .awaitRelease, b⟩ :: B) h d q)
            ⟨p, .awaitRelease, b⟩ = s.closings (A ++ B) h d q := by
          have := closing_filter_at A B ⟨p, .awaitRelease, b⟩ hA hB
          simp only [State.safeClosing, State.askRelease, State.accepts, State.closings, State.withClaims, ht,
            Bool.false_and, State.onUns, Uns.dropClosing] at this ⊢
          simp [this]
        rw [e, ih _ h d q hn' hv hout, ht]
        simp [safeEntry, safeHold]
      | true =>
        have hq : q.length < 8 := by simp at hn; omega
        have e : State.safeClosing (s.closings (A ++ ⟨p, .awaitRelease, b⟩ :: B) h d q)
            ⟨p, .awaitRelease, b⟩ =
            s.withClaims { s.uns with closing := (A ++ [⟨p, .awaitRelease, none⟩]) ++ B, hold := h, dropped := d }
              (q ++ [s.releaseEntry p]) := by
          have := Uns.setClosing_at { s.uns with closing := A ++ ⟨p, .awaitRelease, b⟩ :: B, hold := h, dropped := d } A B
            ⟨p, .awaitRelease, b⟩ .awaitRelease none rfl hA hB
          have ha : (s.closings (A ++ ⟨p, .awaitRelease, b⟩ :: B) h d q).accepts = true := by
            have h8 : q.length < Config.queueCapacity := hq
            simp [State.accepts, State.closings, State.withClaims, ht, h8]
          simp only [State.safeClosing, State.askRelease]
          rw [if_pos ha, s.request_release _ _ _ hq ht hv]
          simp only [State.withClaims, State.onUns]
          rw [this]; simp
        rw [e, ih (A ++ [⟨p, .awaitRelease, none⟩]) h d _ (by simp at hn ⊢; omega) (s.release_values _ _ hv)
          (hin _ rfl), ht]
        simp [safeEntry, safeHold]

/-- R155: the active claims at SAFE entry. -/
theorem State.safeActives (s : State) (L : List ActiveClaim) (C : List ClosingClaim) (q : List TxEntry)
    (hn : q.length + L.length ≤ 8) (hv : ∀ e ∈ q, e.value = s.own) (hp : (C.map (·.pocket) ++ L.map (·.pocket)).Nodup) :
    L.foldl State.safeActive (s.actives C L q) =
      s.withClaims { s.uns with
          active := []
          closing := C ++ L.filterMap fun c =>
            if s.alc.st.accepts && c.stage != .queued then some ⟨c.pocket, .awaitRelease, none⟩ else none }
        (q ++ if s.alc.st.accepts then ((L.filter (·.stage != .queued)).map (·.pocket)).map s.releaseEntry else []) := by
  induction L generalizing C q with
  | nil => simp
  | cons c L ih =>
    have hC : ∀ x ∈ C, x.pocket ≠ c.pocket := by
      intro x hx e
      simp only [List.map_cons, List.nodup_append, List.mem_map, List.mem_cons] at hp
      exact hp.2.2 _ ⟨x, hx, rfl⟩ _ (.inl rfl) e
    have hL : (c :: L).filter (·.pocket != c.pocket) = L := by
      rw [List.filter_cons_of_neg (by simp), List.filter_eq_self]
      intro x hx
      simp only [List.map_cons, List.nodup_append, List.nodup_cons, List.mem_map] at hp
      simpa [bne] using fun e => hp.2.1.1 ⟨x, hx, e⟩
    have hout : (C.map (·.pocket) ++ L.map (·.pocket)).Nodup :=
      List.Nodup.sublist (List.Sublist.append (List.Sublist.refl _) (List.Sublist.map _ (List.sublist_cons_self c L))) hp
    have hin (c' : ClosingClaim) (e : c'.pocket = c.pocket) : ((C ++ [c']).map (·.pocket) ++ L.map (·.pocket)).Nodup := by
      simpa [e] using hp
    have hn' : q.length + L.length ≤ 8 := by simp at hn; omega
    rw [List.foldl_cons]
    by_cases hq : c.stage = .queued
    · have e : State.safeActive (s.actives C (c :: L) q) c =
          s.actives C L q := by
        simp only [State.safeActive, hq, State.onUns, State.actives, State.withClaims, Uns.dropActive, hL]
      rw [e, ih _ _ hn' hv hout]; simp [hq]
    · have e : State.safeActive (s.actives C (c :: L) q) c =
          (s.actives (C ++ [⟨c.pocket, .awaitRelease, none⟩]) L q).askRelease c.pocket := by
        cases hs : c.stage with
        | queued => exact absurd hs hq
        | held => simp only [State.safeActive, hs, State.releaseActive, State.onUns, State.withClaims, Uns.dropActive, hL]
        | armed => simp only [State.safeActive, hs, State.releaseActive, State.onUns, State.withClaims, Uns.dropActive, hL]
      rw [e]
      cases ht : s.alc.st.accepts with
      | false =>
        have e2 : (s.actives (C ++ [⟨c.pocket, .awaitRelease, none⟩]) L q).askRelease c.pocket =
            s.actives C L q := by
          have := closing_filter_at C [] ⟨c.pocket, .awaitRelease, none⟩ hC (by simp)
          simp only [List.append_nil] at this
          simp only [State.askRelease, State.accepts, State.actives, State.withClaims, ht, Bool.false_and, State.onUns,
            Uns.dropClosing] at this ⊢
          simp [this]
        rw [e2, ih _ _ hn' hv hout, ht]; simp
      | true =>
        have hq8 : q.length < 8 := by simp at hn; omega
        have e2 : (s.actives (C ++ [⟨c.pocket, .awaitRelease, none⟩]) L q).askRelease c.pocket =
            s.actives (C ++ [⟨c.pocket, .awaitRelease, none⟩]) L (q ++ [s.releaseEntry c.pocket]) := by
          have := Uns.setClosing_at { s.uns with closing := C ++ [⟨c.pocket, .awaitRelease, none⟩], active := L } C []
            ⟨c.pocket, .awaitRelease, none⟩ .awaitRelease none rfl hC (by simp)
          have ha : (s.actives (C ++ [⟨c.pocket, .awaitRelease, none⟩]) L q).accepts = true := by
            have h8 : q.length < Config.queueCapacity := hq8
            simp [State.accepts, State.actives, State.withClaims, ht, h8]
          unfold State.askRelease
          rw [if_pos ha, s.request_release _ _ _ hq8 ht hv]
          simp only [State.actives, State.withClaims, State.onUns]
          rw [this]
        rw [e2, ih (C ++ [⟨c.pocket, .awaitRelease, none⟩]) _ (by simp at hn ⊢; omega) (s.release_values _ _ hv)
          (hin _ rfl), ht]
        simp [hq, bne]

/-- R155: SAFE entry makes of the claim table what `safeClaims` says, and asks for the RELEASEs of `safeReleases`. -/
theorem State.unsSafe_does (s : State) (hq : s.alc.queue = []) (hc : claimLaw s = true) (hp : pocketLaw s) :
    s.unsSafe = { s with
      uns := safeClaims s.alc.st.accepts s.uns
      alc := { s.alc with queue := if s.alc.st.accepts then (safeReleases s.uns).map s.releaseEntry else [] } } := by
  have hlen : s.uns.closing.length + s.uns.active.length ≤ 4 := of_decide_eq_true hc
  have hcl : (s.uns.closing.map (·.pocket)).Nodup := (List.nodup_append.mp hp).1
  have h0 : s = s.closings ([] ++ s.uns.closing) s.uns.hold s.uns.dropped [] := by
    simp only [State.closings, State.withClaims, List.nil_append, ← hq]
  have h1 := s.safeClosings s.uns.closing [] s.uns.hold s.uns.dropped [] (by simp; omega) (by simp) (by simpa using hcl)
  rw [← h0] at h1
  unfold State.unsSafe
  simp only [h1, List.nil_append]
  let s1 := s.withClaims { s.uns with
          closing := s.uns.closing.filterMap (safeEntry s.alc.st.accepts), hold := safeHold s.uns.closing s.uns.hold
          dropped := s.uns.dropped + BitVec.ofNat 32 (s.uns.hold.length - (safeHold s.uns.closing s.uns.hold).length) } []
  have hpk : ∀ c ∈ s.uns.closing, ∀ x, safeEntry s.alc.st.accepts c = some x → x.pocket = c.pocket := by
    intro c _ x hx
    obtain ⟨p, st, b⟩ := c
    cases st <;> simp only [safeEntry] at hx
    · injection hx with hx; subst hx; rfl
    · injection hx with hx; subst hx; rfl
    · cases hx
    · split at hx
      · injection hx with hx; subst hx; rfl
      · cases hx
    · cases hx
  have hsub : List.Sublist ((s.uns.closing.filterMap (safeEntry s.alc.st.accepts)).map (·.pocket))
      (s.uns.closing.map (·.pocket)) := by
    revert hpk
    induction s.uns.closing with
    | nil => intro _; exact List.Sublist.refl _
    | cons c l ih =>
      intro hpk
      have := ih fun c hc => hpk c (by simp [hc])
      rw [List.filterMap_cons]
      cases hx : safeEntry s.alc.st.accepts c with
      | none => exact List.Sublist.cons _ this
      | some x => simp only [List.map_cons, hpk c (by simp) x hx]; exact List.Sublist.cons_cons _ this
  have hrel (l : List ClosingClaim) : (l.filter (·.stage == .awaitRelease)).length ≤ l.length := List.length_filter_le _ l
  have h2 := s1.safeActives s.uns.active (s.uns.closing.filterMap (safeEntry s.alc.st.accepts))
    (if s.alc.st.accepts then ((s.uns.closing.filter (·.stage == .awaitRelease)).map (·.pocket)).map s.releaseEntry else [])
    (by have := hrel s.uns.closing; split <;> simp <;> omega)
    (by intro e he; split at he
        · obtain ⟨p, _, rfl⟩ := List.mem_map.mp he; rfl
        · cases he)
    (List.Nodup.sublist (List.Sublist.append hsub (List.Sublist.refl _)) hp)
  refine Eq.trans ?_ (h2.trans ?_)
  · rfl
  · simp only [State.withClaims, s1, safeClaims, safeReleases]
    cases s.alc.st.accepts <;> simp [State.releaseEntry, safeHold, State.own] <;> rfl
end Sys2Proof.Machine
end

