-- ==== Sys2Proof/Laws/Entry.lean ====
section
/-! SUPPORT. What SAFE entry leaves in every state, and in states that keep the laws of the claim table; and what follows a command
once the level is SAFE (R90, R112, R155, R162, R166). -/
namespace Sys2Proof.Machine
open Sys2Proof.Safety

/-! ## The claims and the RELEASEs at SAFE entry, in any state -/

/-- `s` is `s0` with other claims and records, none of them new, and with at most `n` telegrams queued, each a RELEASE. -/
structure Released (s0 s : State) (n : Nat) : Prop where
  eq : ∃ C A H d q, s = { s0 with
    uns := { s0.uns with closing := C, active := A, hold := H, dropped := d }, alc := { s0.alc with queue := q } }
  hold : s.uns.hold.length ≤ s0.uns.hold.length
  kinds : ∀ e ∈ s.alc.queue, ∃ p, e.kind = .release p
  count : s.alc.queue.length ≤ n

theorem Released.mono {s0 s : State} {n m : Nat} (h : Released s0 s n) (hm : n ≤ m) : Released s0 s m :=
  ⟨h.eq, h.hold, h.kinds, Nat.le_trans h.count hm⟩

theorem Released.onUns {s0 s : State} {n : Nat} (h : Released s0 s n) (f : Uns → Uns)
    (hf : ∃ C A H d, f s.uns = { s.uns with closing := C, active := A, hold := H, dropped := d })
    (hl : (f s.uns).hold.length ≤ s.uns.hold.length) : Released s0 (s.onUns f) n where
  eq := by
    obtain ⟨C, A, H, d, hf⟩ := hf
    obtain ⟨C', A', H', d', q, h⟩ := h.eq
    refine ⟨C, A, H, d, q, ?_⟩
    show ({ s with uns := f s.uns } : State) = _
    rw [hf]; subst h; rfl
  hold := Nat.le_trans hl h.hold
  kinds := h.kinds
  count := h.count

theorem insertEntry_length (e : TxEntry) (q : List TxEntry) : (insertEntry e q).length = q.length + 1 := by
  induction q with
  | nil => rfl
  | cons x xs ih => unfold insertEntry; split <;> simp [ih]

theorem Released.request {s0 s : State} {n : Nat} (h : Released s0 s n) (p : Nat) :
    Released s0 (s.request (.release p)) (n + 1) where
  eq := by
    obtain ⟨q, hq⟩ := State.request_shape s (.release p)
    obtain ⟨C, A, H, d, q', h⟩ := h.eq
    exact ⟨C, A, H, d, q, by rw [hq]; subst h; rfl⟩
  hold := by obtain ⟨q, hq⟩ := State.request_shape s (.release p); rw [hq]; exact h.hold
  kinds := by
    intro e he
    unfold State.request at he; simp only at he
    split at he
    · rename_i hx; simp at hx
    · split at he
      · rcases (mem_insertEntry _ _ _).mp he with rfl | he
        · exact ⟨p, rfl⟩
        · exact h.kinds e he
      · exact h.kinds e he
  count := by
    unfold State.request; simp only
    split
    · rename_i hx; simp at hx
    · split
      · show (insertEntry _ _).length ≤ _; rw [insertEntry_length]; exact Nat.succ_le_succ h.count
      · exact Nat.le_succ_of_le h.count

theorem Released.askRelease {s0 s : State} {n : Nat} (h : Released s0 s n) (p : Nat) : Released s0 (s.askRelease p) (n + 1) := by
  unfold State.askRelease
  split
  · exact (h.request p).onUns _ ⟨_, _, _, _, rfl⟩ (Nat.le_refl _)
  · exact (h.onUns _ ⟨_, _, _, _, rfl⟩ (Nat.le_refl _)).mono (Nat.le_succ _)

theorem Released.safeClosing {s0 s : State} {n : Nat} (h : Released s0 s n) (c : ClosingClaim) :
    Released s0 (s.safeClosing c) (n + 1) := by
  unfold State.safeClosing
  split
  · exact (h.onUns _ ⟨_, _, _, _, rfl⟩ (Nat.le_refl _)).mono (Nat.le_succ _)
  · refine (h.onUns _ ⟨_, _, _, _, Uns.dropOver_eq _ _⟩ ?_).mono (Nat.le_succ _)
    rw [Uns.dropOver_eq]; exact List.length_eraseP_le ..
  · exact h.askRelease _
  · exact (h.onUns _ ⟨_, _, _, _, rfl⟩ (Nat.le_refl _)).mono (Nat.le_succ _)
  · exact h.mono (Nat.le_succ _)

theorem Released.safeActive {s0 s : State} {n : Nat} (h : Released s0 s n) (c : ActiveClaim) :
    Released s0 (s.safeActive c) (n + 1) := by
  unfold State.safeActive
  split
  · exact (h.onUns _ ⟨_, _, _, _, rfl⟩ (Nat.le_refl _)).mono (Nat.le_succ _)
  all_goals
    unfold State.releaseActive
    exact (h.onUns _ ⟨_, _, _, _, rfl⟩ (Nat.le_refl _)).askRelease _

theorem Released.foldl {α : Type} (f : State → α → State)
    (hf : ∀ s0 s n x, Released s0 s n → Released s0 (f s x) (n + 1)) (l : List α) {s0 s : State} {n : Nat}
    (h : Released s0 s n) : Released s0 (l.foldl f s) (n + l.length) := by
  induction l generalizing s n with
  | nil => exact h
  | cons x l ih =>
    have := ih (hf _ _ _ x h)
    rwa [Nat.add_right_comm] at this

theorem State.askRelease_active (s : State) (p : Nat) : (s.askRelease p).uns.active = s.uns.active := by
  unfold State.askRelease; split
  · obtain ⟨q, h⟩ := State.request_shape s (.release p); rw [h]; rfl
  · rfl

theorem State.safeClosing_active (s : State) (c : ClosingClaim) : (s.safeClosing c).uns.active = s.uns.active := by
  unfold State.safeClosing; split
  · rfl
  · simp only [State.onUns]; rw [Uns.dropOver_eq]
  · exact s.askRelease_active _
  · rfl
  · rfl

theorem State.safeActive_active (s : State) (c : ActiveClaim) :
    (s.safeActive c).uns.active = s.uns.active.filter (·.pocket != c.pocket) := by
  unfold State.safeActive; split
  · rfl
  all_goals (unfold State.releaseActive; simp only; rw [State.askRelease_active]; rfl)

theorem State.safeClosings_active (l : List ClosingClaim) (s : State) :
    (l.foldl State.safeClosing s).uns.active = s.uns.active := by
  induction l generalizing s with
  | nil => rfl
  | cons c l ih => rw [List.foldl_cons, ih, State.safeClosing_active]

theorem State.safeActives_active (l : List ActiveClaim) (s : State) :
    (l.foldl State.safeActive s).uns.active = s.uns.active.filter fun x => l.all fun c => x.pocket != c.pocket := by
  induction l generalizing s with
  | nil => exact (List.filter_eq_self.mpr fun _ _ => rfl).symm
  | cons c l ih =>
    rw [List.foldl_cons, ih, State.safeActive_active, List.filter_filter]
    congr 1; funext x; simp [Bool.and_comm]

/-- R155: in any state the claims at SAFE entry leave no active claim and queue RELEASEs alone, at most one for each entry. -/
theorem State.unsSafe_released (s : State) (hq : s.alc.queue = []) :
    Released s s.unsSafe (s.uns.closing.length + s.uns.active.length) ∧ s.unsSafe.uns.active = [] := by
  have h : Released s s 0 := ⟨⟨_, _, _, _, _, rfl⟩, Nat.le_refl _, by simp [hq], by simp [hq]⟩
  have h := h.foldl State.safeClosing (fun _ _ _ c h => h.safeClosing c) s.uns.closing
  have h := h.foldl State.safeActive (fun _ _ _ c h => h.safeActive c) s.uns.active
  unfold State.unsSafe
  refine ⟨by simpa using h, ?_⟩
  rw [State.safeActives_active, State.safeClosings_active, List.filter_eq_nil_iff]
  intro x hx hall
  simpa using List.all_eq_true.mp hall x hx

/-! ## The PRESENCE -/

/-- A PRESENCE stands in the queue, none of them in flight or with an attempt failed: a further one asked for joins it. -/
def PresenceStands (q : List TxEntry) : Prop :=
  (∃ e ∈ q, e.kind = .presence) ∧ ∀ e ∈ q, e.kind = .presence → e.inFlight = false ∧ e.fails = 0

/-- Only RELEASEs and PRESENCEs stand in the queue. -/
def SafeQueue (q : List TxEntry) : Prop := ∀ e ∈ q, e.kind = .presence ∨ ∃ p, e.kind = .release p

/-- R86, R87: a PRESENCE asked for changes nothing where the line takes no request or one stands already. -/
theorem State.request_presence_idle (s : State) (h : s.alc.st.accepts = false ∨ PresenceStands s.alc.queue) :
    s.request .presence = s := by
  unfold State.request State.accepts
  cases ha : s.alc.st.accepts with
  | false => simp
  | true =>
    obtain ⟨⟨e, he, hk⟩, hall⟩ := h.resolve_left (by simp [ha])
    have hany : s.alc.queue.any (·.kind == TxKind.presence) = true := List.any_eq_true.mpr ⟨e, he, by simp [hk]⟩
    have hmap : s.alc.queue.map (fun e => if e.kind == TxKind.presence then e.join else e) = s.alc.queue := by
      refine (List.map_congr_left fun x hx => ?_).trans (List.map_id _)
      by_cases hkx : x.kind = .presence
      · obtain ⟨h1, h2⟩ := hall x hx hkx
        obtain ⟨k, v, p, f, a, i, l⟩ := x
        simp only at h1 h2 hkx
        subst h1 h2 hkx; rfl
      · simp [hkx]
    simp only [hany, State.onAlc, hmap]; rfl

theorem State.request_presence_safe (s : State) (h : SafeQueue s.alc.queue) : SafeQueue (s.request .presence).alc.queue := by
  unfold State.request; simp only
  split
  · intro e he
    obtain ⟨x, hx, rfl⟩ := List.mem_map.mp he
    split
    · rw [TxEntry.join_kind]; exact h x hx
    · exact h x hx
  · split
    · intro e he
      rcases (mem_insertEntry _ _ _).mp he with rfl | he
      · exact .inl rfl
      · exact h e he
    · exact h

/-! ## SAFE entry -/

/-- R112, R114: all that the end of a round does. -/
theorem State.endRound_does (s : State) : s.endRound = { s with psr := { s.psr with
    dispatch := if s.psr.dispatch = .queued ∨ s.psr.dispatch = .sent then s.restState else s.psr.dispatch
    dispTimer := if s.psr.dispatch = .queued ∨ s.psr.dispatch = .sent then none else s.psr.dispTimer } } := by
  obtain ⟨sig, bac, fsq, sfc, alc, psr, blt, uns, flt, mpt, stu, samples, bits, pending⟩ := s
  obtain ⟨peers, ov, sh, sa, di, dt, mi, de, ee, se, su⟩ := psr
  cases di <;> rfl

/-- R90, R112, R155, R166: all that SAFE entry does. The records lose none but those that leave with their entries; the queue holds
RELEASEs and the PRESENCE. Under the laws of 4 entries and of one entry a pocket the claims and the queue are those that
`safeClaims` and `safeReleases` say. -/
theorem State.enterSafe_does (s : State) : ∃ C H d q,
    s.enterSafe = { s with
      mpt := raising s.mpt .safeEntered
      alc := { s.alc with queue := q, unit := clearedUnit s.alc }
      psr := { s.psr with
        summary := .safe
        dispatch := if s.psr.dispatch = .queued ∨ s.psr.dispatch = .sent then s.restState else s.psr.dispatch
        dispTimer := if s.psr.dispatch = .queued ∨ s.psr.dispatch = .sent then none else s.psr.dispTimer }
      uns := { s.uns with active := [], closing := C, hold := H, dropped := d }
      sig := { s.sig with zeroArmed := false }
      fsq := { s.fsq with limit := none, escape := none, eject := none, move := s.fsq.move.map Move.hold } } ∧
    H.length ≤ s.uns.hold.length ∧ SafeQueue q ∧
    (s.alc.st.accepts = true → claimLaw s = true → PresenceStands q) ∧
    (claimLaw s = true → pocketLaw s →
      ({ s.uns with active := [], closing := C, hold := H, dropped := d } : Uns) = safeClaims s.alc.st.accepts s.uns ∧
      q = if s.alc.st.accepts then (safeReleases s.uns).map s.releaseEntry ++
          [⟨.presence, 32768 + s.own, [], 0, false, false, false⟩] else []) := by
  unfold State.enterSafe
  simp only
  rw [State.emptyQueue_does]
  generalize hv : ({ s with alc := { s.alc with queue := [], unit := clearedUnit s.alc } } : State) = v
  have hvq : v.alc.queue = [] := by subst hv; rfl
  have hvu : v.uns = s.uns := by subst hv; rfl
  have hva : v.alc.st = s.alc.st := by subst hv; rfl
  obtain ⟨⟨⟨C, A, H, d, q, hw⟩, hH, hrel, hlen⟩, hA⟩ := State.unsSafe_released v hvq
  have hex := State.unsSafe_does v hvq
  generalize v.unsSafe = w at *
  have hA : A = [] := by rw [hw] at hA; exact hA
  subst hA
  rw [State.endRound_does]
  generalize hx : (State.onPsr (State.raise (State.holdFeed _) .safeEntered) fun p => { p with summary := .safe }) = x
  obtain ⟨q', hq'⟩ := State.request_shape x .presence
  have hxq : x.alc = { s.alc with queue := q, unit := clearedUnit s.alc } := by subst hx hw hv; rfl
  have hxo : x.own = s.own := by subst hx hw hv; rfl
  have hwq : w.alc.queue = q := by rw [hw]
  have hqr : (x.request .presence).alc.queue = q' := by rw [hq']
  rw [hwq] at hrel hlen
  have hfew : claimLaw s = true → q.length < 8 := by
    intro hc
    have : s.uns.closing.length + s.uns.active.length ≤ 4 := of_decide_eq_true hc
    rw [hvu] at hlen; omega
  have hno : (q.any (·.kind == TxKind.presence)) = false := by
    rw [List.any_eq_false]; intro e he; obtain ⟨p, hp⟩ := hrel e he; simp [hp]
  have hins : s.alc.st.accepts = true → q.length < 8 →
      q' = insertEntry ⟨.presence, 32768 + s.own, [], 0, false, false, false⟩ q := by
    intro ha hl
    rw [← hqr]
    unfold State.request State.accepts
    simp only [hxq, hno, ha, hl, Config.queueCapacity]
    simp only [Bool.and_false, Bool.and_true, Bool.false_eq_true, if_false, State.onAlc, decide_true, if_true]
    simp only [hxq, State.valueOf, hxo]
    simp [arbitration]
  have hnot : s.alc.st.accepts = false → q' = q := by
    intro ha
    rw [← hqr, x.request_presence_idle (.inl (by rw [hxq]; exact ha)), hxq]
  refine ⟨C, H, d, q', ?_, ?_, ?_, ?_, ?_⟩
  · rw [hq']; subst hx hw hv; rfl
  · rw [hw] at hH; rw [← hvu]; exact hH
  · rw [← hqr]; exact x.request_presence_safe (by rw [hxq]; exact fun e he => .inr (hrel e he))
  · intro ha hc
    rw [hins ha (hfew hc)]
    refine ⟨⟨_, (mem_insertEntry _ _ _).mpr (.inl rfl), rfl⟩, ?_⟩
    intro e he hk
    rcases (mem_insertEntry _ _ _).mp he with rfl | he
    · exact ⟨rfl, rfl⟩
    · obtain ⟨p, hp⟩ := hrel e he; rw [hp] at hk; cases hk
  · intro hc hp
    have he := hex (by unfold claimLaw at hc ⊢; rw [hvu]; exact hc) (by unfold pocketLaw at hp ⊢; rw [hvu]; exact hp)
    have hU : w.uns = safeClaims s.alc.st.accepts s.uns := by
      rw [he]; show safeClaims v.alc.st.accepts v.uns = _; rw [hva, hvu]
    have hQ : q = if s.alc.st.accepts then (safeReleases s.uns).map s.releaseEntry else [] := by
      rw [← hwq, he]
      show (if v.alc.st.accepts then (safeReleases v.uns).map v.releaseEntry else []) = _
      rw [hva, hvu]; subst hv; rfl
    constructor
    · rw [← hU, hw]; show _ = ({ v.uns with closing := C, active := [], hold := H, dropped := d } : Uns); rw [hvu]
    · cases ha : s.alc.st.accepts
      · rw [hnot ha, hQ, ha]; rfl
      · rw [hins ha (hfew hc), insertEntry_last]
        · rw [hQ, ha]; simp
        · intro e he
          rw [hQ, ha] at he
          simp only [if_true] at he
          obtain ⟨p, _, rfl⟩ := List.mem_map.mp he
          show s.own ≤ 32768 + s.own; omega

/-! ## What follows a command in SAFE -/

/-- R61: in SAFE the need is inactive. -/
theorem State.needNow_inSafe (s : State) (h : s.inSafe = true) : s.needNow.active = false := by
  unfold State.needNow; split
  · rfl
  · simp [State.needActive, h]

/-- R143: in SAFE no claim is added. -/
theorem State.select_inSafe (n : Nat) (s : State) (h : s.inSafe = true) : s.select n = s := by
  cases n with
  | zero => rfl
  | succ n =>
    have : s.mayClaim = false := by unfold State.mayClaim; simp [h]
    unfold State.select; rw [this]; rfl

/-- `t` has the line of `s` where a PRESENCE asked for changes nothing, and otherwise at most PRESENCEs more in its queue. -/
structure LineKept (s t : State) : Prop where
  st : t.alc.st = s.alc.st
  alc : s.alc.st.accepts = false ∨ PresenceStands s.alc.queue → t.alc = s.alc
  queue : SafeQueue s.alc.queue → SafeQueue t.alc.queue

theorem LineKept.of_alc {s t : State} (h : t.alc = s.alc) : LineKept s t :=
  ⟨by rw [h], fun _ => h, fun x => by rw [h]; exact x⟩

theorem LineKept.trans {s t u : State} (h : LineKept s t) (g : LineKept t u) : LineKept s u :=
  ⟨g.st.trans h.st, fun x => (g.alc (by rw [h.alc x]; exact x)).trans (h.alc x), fun x => g.queue (h.queue x)⟩

theorem LineKept.request (s : State) : LineKept s (s.request .presence) :=
  ⟨by obtain ⟨q, h⟩ := State.request_shape s .presence; rw [h], fun x => by rw [s.request_presence_idle x],
    s.request_presence_safe⟩

theorem LineKept.onlyIf (s : State) (c : Bool) (f : State → State) (h : LineKept s (f s)) : LineKept s (s.onlyIf c f) := by
  cases c
  · exact .of_alc rfl
  · exact h

/-- R63, R100: with no round queued a recomputation asks for a PRESENCE at most. -/
theorem State.recompute_lineKept (s : State) (hd : s.psr.dispatch ≠ .queued) : LineKept s s.recompute := by
  unfold State.recompute; simp only
  generalize hx : (s.onSfc fun f => { f with values := s.mpt.job.map s.forecastOf, need := s.needNow, starve := s.starveNow }) = x
  have hsx : LineKept s x := by subst hx; exact .of_alc rfl
  have hdx : x.psr.dispatch ≠ .queued := by subst hx; exact hd
  generalize hy : (x.onlyIf (s.starveNow && !s.sfc.starve) fun s => s.raise .starveExpected) = y
  have hxy : LineKept x y := by subst hy; exact .onlyIf _ _ _ (.of_alc rfl)
  have hdy : y.psr.dispatch ≠ .queued := by subst hy; cases (s.starveNow && !s.sfc.starve) <;> exact hdx
  generalize hz : (y.onlyIf (s.sfc.need.changed s.needNow) fun s => s.request .presence) = z
  have hyz : LineKept y z := by subst hz; exact .onlyIf _ _ _ (.request _)
  have hdz : z.psr.dispatch ≠ .queued := by
    subst hz; cases s.sfc.need.changed s.needNow
    · exact hdy
    · obtain ⟨q, h⟩ := State.request_shape y .presence
      simp only [State.onlyIf, cond_true]; rw [h]; exact hdy
  refine hsx.trans (hxy.trans (hyz.trans (.onlyIf _ _ _ ?_)))
  unfold State.needTurned
  split
  · exact .of_alc rfl
  · exact .of_alc rfl
  · rename_i h; exact absurd h hdz
  · exact .of_alc rfl
  · exact .of_alc rfl

/-- R94, R140, R143, R149: in SAFE, with no round queued and the peer table unchanged, what follows a command asks for a PRESENCE at
most and checks the arming of the claims there are. -/
theorem State.conclude_inSafe (force : Bool) (s0 u : State) (hr : u.running = true) (hs : u.inSafe = true)
    (hd : u.psr.dispatch ≠ .queued) (hp : peersChanged s0 u = false) :
    LineKept u (State.conclude force s0 u) ∧
      (State.conclude force s0 u).uns = { u.uns with active := u.uns.active.mapIdx u.armedStage } := by
  obtain ⟨v, h, _⟩ := State.entry_shape s0 u
  rw [State.conclude_eq force s0 u hr]
  simp only
  rw [h]
  generalize hy : ({ u with fsq := { u.fsq with barOut := u.barOutNow }, mpt := { u.mpt with sources := v } } : State) = y
  have ky : LineKept u y := by subst hy; exact .of_alc rfl
  have dy : y.psr.dispatch ≠ .queued := by subst hy; exact hd
  generalize hz : y.onlyIf (force || forecastDue s0 y) State.recompute = z
  have kz : LineKept y z := by subst hz; exact .onlyIf _ _ _ (y.recompute_lineKept dy)
  have hzs : peersChanged s0 z = false ∧ z.uns = u.uns ∧ z.inSafe = true ∧ z.armedStage = u.armedStage := by
    subst hz
    cases (force || forecastDue s0 y)
    · subst hy; exact ⟨hp, rfl, hs, rfl⟩
    · obtain ⟨q, hq⟩ := State.recompute_shape y
      simp only [State.onlyIf, cond_true]; rw [hq]; subst hy; exact ⟨hp, rfl, hs, rfl⟩
  rw [hzs.1]
  simp only [State.onlyIf_false]
  have kw : LineKept z (State.refreshPressed s0 z.rearm.refreshSummary) := by
    unfold State.refreshPressed State.refreshSummary
    simp only
    refine LineKept.trans ?_ (.onlyIf _ _ _ (.request _))
    refine LineKept.trans ?_ (.onlyIf _ _ _ (.request _))
    exact .of_alc rfl
  have asked (x : State) (c : Bool) :
      (x.onlyIf c fun s => s.request .presence).uns = x.uns ∧ (x.onlyIf c fun s => s.request .presence).inSafe = x.inSafe := by
    cases c
    · exact ⟨rfl, rfl⟩
    · obtain ⟨q, h⟩ := State.request_shape x .presence
      simp only [State.onlyIf, cond_true]; rw [h]; exact ⟨rfl, rfl⟩
  have hw : (State.refreshPressed s0 z.rearm.refreshSummary).uns = z.rearm.uns ∧
      (State.refreshPressed s0 z.rearm.refreshSummary).inSafe = z.inSafe := by
    unfold State.refreshPressed State.refreshSummary
    simp only
    exact ⟨(asked _ _).1.trans (asked _ _).1, (asked _ _).2.trans (asked _ _).2⟩
  generalize State.refreshPressed s0 z.rearm.refreshSummary = w at *
  have hsel : (w.onlyIf (selectionDue s0 w) fun s => s.select Config.claimCapacity) = w := by
    cases selectionDue s0 w
    · rfl
    · exact State.select_inSafe _ _ (hw.2.trans hzs.2.2.1)
  rw [hsel]
  refine ⟨ky.trans (kz.trans kw), hw.1.trans ?_⟩
  show ({ z.uns with active := z.uns.active.mapIdx z.armedStage } : Uns) = _
  rw [hzs.2.1, hzs.2.2.2]

end Sys2Proof.Machine
end

