-- ==== Sys2Proof/Laws/Idle.lean ====
section
/-! SUPPORT. What the station does with no command waiting: one lemma for each of its three cases, what one bit time of the
aisle line can do, and what the sample instant makes of pins and filters. -/
namespace Sys2Proof.Machine

/-! ## The three cases -/

theorem State.idle_due {s : State} (h : s.due ≠ []) : s.idle = { s with pending := s.due } := by
  simp [State.idle, h]

theorem State.idle_bit {s : State} (h : s.due = []) {other : Bool} {rest : List Bool} (hb : s.bits = other :: rest) :
    s.idle = { s with
      alc := { s.alc with unit := (s.alc.bit other).1 }, bits := rest, pending := (s.alc.bit other).2.toList } := by
  simp [State.idle, State.bitTime, h, hb]

theorem State.idle_tick {s : State} (h : s.due = []) (hb : s.bits = []) : s.idle = s.tick := by
  simp [State.idle, h, hb]

theorem step_idle {s : State} (h : s.pending = []) : step s = .next s.idle := by simp [step, h]

/-! ## One bit time -/

theorem Alc.bit_off {a : Alc} (h : a.st = .off) (other : Bool) : a.bit other = (a.unit, none) := by simp [Alc.bit, h]

theorem Alc.alnTx_on {a : Alc} (h : a.st ≠ .off) : a.alnTx = a.unit.tx.headD true := by simp [Alc.alnTx, h]

theorem LineUnit.read_recessive (u : LineUnit) :
    u.read true = { u with tx := u.tx.tail, gap := min 10 (u.gap + 1) } := rfl

theorem LineUnit.read_dominant (u : LineUnit) : u.read false = { u with tx := u.tx.tail, gap := 0 } := rfl

theorem Alc.bit_recessive {a : Alc} (h : a.st ≠ .off) {other seen : Bool} (hr : a.unit.rx = .free seen)
    (hl : (a.unit.tx.headD true && other) = true) :
    a.bit other = ({ tx := a.unit.tx.tail, gap := min 10 (a.unit.gap + 1), rx := .free true },
      if a.waitGap = true ∧ 9 ≤ a.unit.gap then some .recessiveBitsSeen else none) := by
  have hg : (min 10 (a.unit.gap + 1) = 10) ↔ 9 ≤ a.unit.gap := by omega
  simp only [Alc.bit, h, hr, Alc.freeBit, Alc.alnTx_on h, wiredAnd, hl, gapBits, LineUnit.read_recessive, hg, if_true, if_false,
    Bool.and_eq_true, decide_eq_true_eq]

theorem Alc.bit_dominant {a : Alc} (h : a.st ≠ .off) {other seen : Bool} (hr : a.unit.rx = .free seen)
    (hl : (a.unit.tx.headD true && other) = false) :
    a.bit other = ({
      tx := a.unit.tx.tail, gap := 0
      rx := if seen = true ∧ a.waitGap = false then .reading [false] (if a.st = .withdrawn then .withdrawn else .plain)
        else .free false }, none) := by
  simp only [Alc.bit, h, hr, Alc.freeBit, Alc.alnTx_on h, wiredAnd, hl, LineUnit.read_dominant, if_false, Bool.false_eq_true]
  cases seen <;> cases a.waitGap <;> rfl

theorem Alc.bit_passing {a : Alc} (h : a.st ≠ .off) {other : Bool} {left : Nat} {how : Hearing}
    (hr : a.unit.rx = .passing left how) :
    a.bit other =
      (let u := a.unit.read (a.unit.tx.headD true && other)
       if left ≤ 1 then u.windowOver how else { u with rx := .passing (left - 1) how }, none) := by
  simp only [Alc.bit, h, hr, Alc.alnTx_on h, wiredAnd, if_false]

/-- A bit of a frame: what the receiver makes of it, and the row of an own bit read back wrong before the window, or else of the
frame's decision. -/
theorem Alc.bit_reading {a : Alc} (h : a.st ≠ .off) {other : Bool} {how : Hearing} {bits : List Bool}
    (hr : a.unit.rx = .reading bits how) :
    let line := a.unit.tx.headD true && other
    let now := bits ++ [line]
    let own := if a.unit.tx = [] then none else a.flying
    a.bit other = ((a.unit.read line).receives now (how.next line) (receive now),
      if own.isSome = true ∧ 2 < a.unit.tx.length ∧ a.unit.tx.headD true ≠ line
      then some (if arbitrates bits then .arbitrationLost else .attemptFailed)
      else decided own now (how.next line) (receive now)) := by
  simp only [Alc.bit, h, hr, Alc.frameBit, Alc.alnTx_on h, wiredAnd, if_false]
  congr 1
  cases ht : a.unit.tx with
  | nil => simp
  | cons x xs =>
    cases hf : a.flying with
    | none => simp
    | some e =>
      by_cases hx : x = (x && other)
      · simp [mismatch, ← hx]
      · by_cases hn : xs.length + 1 ≤ 2
        · have : ¬ 2 < xs.length + 1 := by omega
          simp [mismatch, hn, this]
        · have : 2 < xs.length + 1 := by omega
          simp only [List.isEmpty_cons, List.headD_cons, mismatch, hx, List.length_cons, hn, Bool.false_eq_true, or_self,
            if_false, Option.bind, reduceCtorEq, Option.isSome_some, this, ne_eq, not_false_eq_true, and_self, if_true]
          cases arbitrates bits <;> rfl

/-! ## The sample instant -/

theorem State.tick_pinState (s : State) (o : Output) : s.tick.pinState o = s.formedPin o := by cases o <;> rfl

theorem State.sampled_get (s : State) (pins : InputBits) (i : Input) :
    (s.sampled pins)[i.idx] =
      (s.sig.filters[i.idx]).sample (s.cfg.filterLen i) (s.logical s.sig.pins.pins i) (s.logical pins i) := by
  cases i <;> simp only [State.sampled, Vector.getElem_ofFn, Fin.getElem_fin] <;> rfl

theorem State.settled_get (s : State) (v : Vector (Filter × Option Bool) 21) (i : Input) :
    (s.settled v)[i.idx] =
      if (s.sig.filters[i.idx]).acc = none ∧ ((v[i.idx]).2.bind fun l => firstCommand s.running i l).isSome = true
      then s.sig.filters[i.idx] else (v[i.idx]).1 := by
  simp only [← Option.isNone_iff_eq_none, ← Bool.and_eq_true]
  cases i <;> simp only [State.settled, Vector.getElem_ofFn, Fin.getElem_fin] <;> rfl

/-! ## The commands of accepted edges -/

/-- R179, R185: the encoder's edge, with a level of both its phases known and one of them just accepted. -/
theorem mem_encoderCommand (v : Vector (Filter × Option Bool) 21) (c : Instr) : c ∈ encoderCommand v ↔
    ∃ a b, c = .encoderEdge a b ∧ v[19].1.acc = some a ∧ v[20].1.acc = some b ∧ (v[19].2 ≠ none ∨ v[20].2 ≠ none) := by
  cases ha : v[19].1.acc <;> cases hb : v[20].1.acc <;> cases hc : v[19].2 <;> cases hd : v[20].2 <;> simp [encoderCommand, ha, hb, hc, hd, dueIf]

/-- What the sample instant queues: the encoder's edge, and of every input the edge it accepts, or the first level. -/
theorem State.mem_edges (s : State) (v : Vector (Filter × Option Bool) 21) (c : Instr) : c ∈ s.edges v ↔
    c ∈ encoderCommand v ∨ ∃ i l, (v[i.idx]).2 = some l ∧
      ((s.sig.filters[i.idx]).acc ≠ none ∧ edgeCommand i l = some c ∨
        (s.sig.filters[i.idx]).acc = none ∧ firstCommand s.running i l = some c) := by
  have all : ∀ i : Input, i ∈ Input.all := fun i => by cases i <;> decide
  have one : ∀ i : Input, (c ∈ match (v[i.idx]).2 with
      | none => []
      | some l => (if (s.sig.filters[i.idx]).acc.isSome then edgeCommand i l else firstCommand s.running i l).toList) ↔
      ∃ l, (v[i.idx]).2 = some l ∧ ((s.sig.filters[i.idx]).acc ≠ none ∧ edgeCommand i l = some c ∨
        (s.sig.filters[i.idx]).acc = none ∧ firstCommand s.running i l = some c) := fun i => by
    cases (v[i.idx]).2 <;> cases (s.sig.filters[i.idx]).acc <;> simp
  simp only [State.edges, List.mem_append, List.mem_flatMap, List.mem_filter, or_assoc]
  refine or_congr_right ⟨?_, ?_⟩
  · rintro (h | ⟨i, -, h⟩)
    · exact ⟨_, (one _).mp h⟩
    · exact ⟨_, (one i).mp h⟩
  · rintro ⟨i, h⟩
    by_cases hi : i = .homeSw
    · exact .inl ((one _).mpr (hi ▸ h))
    · exact .inr ⟨i, ⟨all i, by simpa using hi⟩, (one i).mpr h⟩

end Sys2Proof.Machine
end

