-- ==== Sys2Proof/Laws/Port.lean ====
section
/-! SUPPORT. The taking of a command frame, said once: what a full buffer, a failed check and a served command make of it, and
that an answer does not disturb what follows; and that the bytes of a value lie as its field (`Lays`). -/
namespace Sys2Proof.Machine

open Sys2Proof.Safety

/-- What the CNC clocks out while a command frame of this many payload bytes goes in. -/
def State.clocked (s : State) (n : Nat) : State := s.onMpt fun m => m.clocked (2 + n)

variable (s : State) (code : Byte) (p : List Byte) (act : State → State)

/-- R198: a frame that is not taken. -/
theorem State.command_pending (h : s.mpt.takes = false) : s.command code p act = s.clocked p.length := by
  simp [State.command, h, State.clocked]

/-- R199: a frame that fails one of the checks 2 to 5. -/
theorem State.command_refused {r : Status} (h : s.mpt.takes = true) (hr : s.refusal code p = some r) :
    s.command code p act = (s.clocked p.length).answer r [] := by
  have hr' : (s.clocked p.length).refusal code p = some r := hr
  simp only [State.command, h, if_true]
  show (match (s.clocked p.length).refusal code p with | some st => (s.clocked p.length).answer st [] | none => act (s.clocked p.length)) = _
  rw [hr']

/-- R199: a frame that passes the checks 1 to 5. -/
theorem State.command_passes (h : s.mpt.takes = true) (hr : s.refusal code p = none) :
    s.command code p act = act (s.clocked p.length) := by
  have hr' : (s.clocked p.length).refusal code p = none := hr
  simp only [State.command, h, if_true]
  show (match (s.clocked p.length).refusal code p with | some st => (s.clocked p.length).answer st [] | none => act (s.clocked p.length)) = _
  rw [hr']

/-- R199: in RUNNING a frame of the right length, with the key where it is needed, passes them. -/
theorem State.refusal_none (hs : s.running = true) (hl : commandLength code = some p.length)
    (hk : needsKey code = false ∨ s.inp .setupKey = true) : s.refusal code p = none := by
  have hp : s.stu.phase = .running := by simpa [State.running] using hs
  rcases hk with hk | hk <;> simp [State.refusal, hp, hl, hk]

theorem State.command_served (hs : s.running = true) (h : s.mpt.takes = true) (hl : commandLength code = some p.length)
    (hk : needsKey code = false ∨ s.inp .setupKey = true) : s.command code p act = act (s.clocked p.length) :=
  State.command_passes s code p act h (State.refusal_none s code p hs hl hk)

/-- What follows a command holds beside the answer to it. -/
theorem follows_answered {force : Bool} {s0 u t : State} (h : Follows force s0 u t) (r : Status) (d : List Byte) :
    Follows force s0 (answered u r d) (Safety.answered t r d) where
  rest hp := by
    have e : ∀ s : State, base (Safety.answered s r d) = { base s with mpt := { (base s).mpt with buffer := .pending (some { status := r, data := d }) } } := fun _ => rfl
    rw [e, e, h.rest hp]
  restPeers := by
    have e : ∀ s : State, peerBase (Safety.answered s r d) = { peerBase s with mpt := { (peerBase s).mpt with buffer := .pending (some { status := r, data := d }) } } := fun _ => rfl
    rw [e, e, h.restPeers]
  mismatch := h.mismatch
  mismatchRises := h.mismatchRises
  mismatchStands := h.mismatchStands
  barOut := h.barOut
  summary := h.summary
  keeps := h.keeps
  fresh := h.fresh
  turned := h.turned
  pending := h.pending
  barOutEvent := h.barOutEvent
  lotDoneEvent := h.lotDoneEvent
  holdFullEvent := h.holdFullEvent
  binFullEvent := h.binFullEvent
  starveEvent := h.starveEvent
  others := h.others
  claims := h.claims
  selects hd := by
    obtain ⟨h1, h2, h3, h4, h5, h6⟩ := h.selects hd
    refine ⟨h1, h2, h3, fun hx => ⟨?_, (h4 hx).2⟩, h5, fun m => h6 ⟨m.synced, m.free, m.level, m.line, m.sizes, m.running, m.room, m.spaced⟩⟩
    obtain ⟨m, -⟩ := h4 hx
    exact ⟨m.synced, m.free, m.level, m.line, m.sizes, m.running, m.room, m.spaced⟩
  presence := h.presence
  dispatch := h.dispatch
  queue := h.queue

/-- A command that is carried out: what follows it, and its answer. -/
theorem State.carried_follows (s0 u : State) (force : Bool) (d : List Byte) (hr : u.running = true) :
    Follows force s0 (answered u.engine .done d) (State.carried s0 u force d) :=
  follows_answered (State.after_follows force s0 u hr) .done d

/-! ## The fields of a read (chapter 12) -/

theorem beBytes_length (w v : Nat) : (beBytes w v).length = w := by
  induction w generalizing v with
  | zero => rfl
  | succ n ih => simp [beBytes, ih]

theorem beNat_append_byte (l : List Byte) (b : Byte) : beNat (l ++ [b]) = beNat l * 256 + b.toNat := by
  simp [beNat, List.foldl_append]

theorem beNat_beBytes (w v : Nat) : beNat (beBytes w v) = v % 256 ^ w := by
  induction w generalizing v with
  | zero => simp [beBytes, beNat, Nat.mod_one]
  | succ n ih =>
    rw [beBytes, beNat_append_byte, ih, BitVec.toNat_ofNat, show 256 ^ (n + 1) = 256 * 256 ^ n from Nat.pow_succ', Nat.mod_mul]
    omega

/-- A field of these bytes reads as its value, and the fields after it follow. -/
theorem lays_field {d r : List Byte} {w : Nat} {v : Option Nat} {fs : List (Nat × Option Nat)} (hl : d.length = w)
    (hv : ∀ x, v = some x → beNat d = x % 256 ^ w) (h : Lays r fs) : Lays (d ++ r) ((w, v) :: fs) := by
  subst hl
  refine ⟨by simp, fun x hx => ?_, by simpa using h⟩
  simpa [fieldNat, slice] using hv x hx

theorem lays_beBytes {r : List Byte} {w v : Nat} {fs : List (Nat × Option Nat)} (h : Lays r fs) :
    Lays (beBytes w v ++ r) ((w, some v) :: fs) :=
  lays_field (beBytes_length w v) (fun x hx => by cases hx; exact beNat_beBytes w v) h

theorem lays_byteOf {r : List Byte} {v : Nat} {fs : List (Nat × Option Nat)} (h : Lays r fs) :
    Lays (byteOf v ++ r) ((1, some v) :: fs) := lays_beBytes (w := 1) h

theorem lays_flagByte {r : List Byte} {b : Bool} {fs : List (Nat × Option Nat)} (h : Lays r fs) :
    Lays (flagByte b ++ r) ((1, some b.toNat) :: fs) := by
  have e : flagByte b = byteOf b.toNat := by cases b <;> rfl
  rw [e]; exact lays_byteOf h

theorem lays_free {r d : List Byte} {w : Nat} {fs : List (Nat × Option Nat)} (hl : d.length = w) (h : Lays r fs) :
    Lays (d ++ r) ((w, none) :: fs) := lays_field hl (fun _ hx => nomatch hx) h

/-- R223: an absent unsigned value has all bits set. -/
theorem lays_beOpt {r : List Byte} {w : Nat} {o : Option Nat} {fs : List (Nat × Option Nat)} (h : Lays r fs) :
    Lays (beOpt w o ++ r) ((w, some (o.getD (256 ^ w - 1))) :: fs) := by
  cases o with
  | some v => exact lays_beBytes h
  | none =>
    refine lays_field (List.length_replicate) (fun x hx => ?_) h
    cases hx
    have ones : ∀ n, beNat (List.replicate n (0xFF : Byte)) = 256 ^ n - 1 := by
      intro n
      induction n with
      | zero => rfl
      | succ n ih =>
        rw [List.replicate_succ', beNat_append_byte, ih, Nat.pow_succ]
        have : 1 ≤ 256 ^ n := Nat.one_le_pow _ _ (by decide)
        show (256 ^ n - 1) * 256 + 255 = _
        omega
    rw [beOpt, ones, Option.getD_none, Nat.mod_eq_of_lt (Nat.sub_lt (Nat.pow_pos (by decide)) (by decide))]

/-- R223: an absent signed value of four bytes is the most negative one. -/
theorem lays_beOptInt {r : List Byte} {o : Option Int} {fs : List (Nat × Option Nat)} (h : Lays r fs) :
    Lays (beOptInt 4 o ++ r) ((4, some ((o.getD (-2147483648)) % 4294967296).toNat) :: fs) := by
  cases o with
  | some v => exact lays_beBytes h
  | none => exact lays_beBytes h

theorem packBits_eq (n : Nat) (bits : List Bool) : packBits n bits = beBytes n (weigh bits * 2 ^ (8 * n - bits.length)) := by
  have : (fun (v : Nat) (b : Bool) => 2 * v + (if b then 1 else 0)) = fun v b => 2 * v + b.toNat := by
    funext v b; cases b <;> rfl
  rw [packBits, weigh, this]

/-- `Lays` as a check the kernel can run. -/
def laysB : List Byte → List (Nat × Option Nat) → Bool
  | d, [] => d.length == 0
  | d, (w, v) :: fs => decide (w ≤ d.length) && (v.all fun x => fieldNat d 0 w == x % 256 ^ w) && laysB (d.drop w) fs

theorem lays_of_laysB (d : List Byte) (fs : List (Nat × Option Nat)) (h : laysB d fs = true) : Lays d fs := by
  induction fs generalizing d with
  | nil => cases d <;> simp_all [laysB, Lays]
  | cons f fs ih =>
    obtain ⟨w, v⟩ := f
    simp only [laysB, Bool.and_eq_true, decide_eq_true_eq] at h
    refine ⟨h.1.1, fun x hx => ?_, ih _ h.2⟩
    subst hx; simpa using h.1.2

end Sys2Proof.Machine
end

