-- ==== Sys2Proof/Tests/Slice0.lean ====
section
/-! SUPPORT. Tests: the manual's worked figures, the bytes and frames written out from chapter 12, the ill-formed commands that
each check refuses, and for every statement a state and operands that meet its hypotheses, clause by clause. -/
namespace Sys2Proof.Tests

-- Kernel evaluations wait for one another; elaborated in turn they hold no thread each while they wait.
set_option Elab.async false

open Sys2Proof.Machine Sys2Proof.Safety

/-! ## Small states -/

/-- A configuration in the ranges of section 12.4. -/
def cfg : Cfg :=
  { Cfg.unconfigured with
    bitRate := 1, pockets := 16, dropDist := 5, lmin := 2, lmax := 8, spacing := 2, horizon := 11, trayCap := 10
    binCap := 10, trip := 95, tc := 4500, runOn := 20, slowZone := 1000, edges := 100, tol := 40, catchMs := 500
    gateMs := 100, xEntry := 380000, xFace := 420000, pMax := 400000
    barTypes := Vector.replicate 15 { nominal := 300000, stock := .stocked, locked := false } }

/-- The job of section 1.11. -/
def job : Job where
  lp := 1250
  wc := 200
  af := 30
  lg := 15000
  lt := 500
  barType := 4
  tn := 1800
  q := 2000

/-- A shuttle bar of type 4 of this length. -/
def bar (len : Option Nat) : BarRec :=
  { barType := some 4, origin := .shuttle, length := len, verified := true, wrongType := false }

/-- Station 7 in service, with no job, the setup key turned. -/
def up : State :=
  ({ State.reset with
    stu := { Stu.reset with phase := .running, addrRead := some 7, cfg := some cfg }
    blt := { Blt.reset with map := List.replicate 16 .unknown }
    alc := { Alc.reset with st := .active }
    mpt := { Mpt.reset with sources := Vector.replicate 16 { priority := 1, pending := false, inService := false } } } : State).setLevel .setupKey true

/-- The same under the job, with the cover closed and the collet open. -/
def work : State :=
  ({ up with mpt := { up.mpt with job := some job }, psr := { up.psr with summary := .run } }.setLevel .guard true).setLevel .colletOpen true

/-- A state of the feed engine, its step begun. -/
def inState (st : FeedState) (s : State) : State := { s with fsq := { s.fsq with st := st, begun := true, pKnown := true } }

/-- The engine with a move. -/
def withMove (m : Move) (s : State) : State := { s with fsq := { s.fsq with move := some m } }

/-- A move that drives forward to a target. -/
def forward (t : Int) : Move :=
  { leg := .main, dir := .fwd, target := some t, phase := .driving, fast := false, halted := false }

/-- The level is SAFE. -/
def safe (s : State) : State := { s with flt := { s.flt with level := .safe } }

/-- The state a command leaves. -/
def after (i : Instr) (s : State) : State :=
  match exec i s with
  | .next t => t
  | .fault _ => s
  | .refused _ => s

/-! ## The manual's worked figures -/

/-- Section 1.11: the parts of a bar cut at P_cut. -/
theorem test_parts_of_a_bar :
    job.c = 1480 ∧ partsOf job (420000 - 120860) = 191 ∧ partsOf job 297662 = 190 ∧ partsOf job 296180 = 189 ∧
      partsOf job 17950 = 1 ∧ partsOf job 16470 = 0 ∧ partsOf job 14850 = 0 := by decide

/-- Section 1.12: three bars learned, and the length out of band. -/
theorem test_learning :
    let l1 := (Learned.mk 0 0 0).learn 299640
    let l2 := l1.learn 300120
    let l3 := l2.learn 299880
    l1.la4 = 1198560 ∧ l1.la = 299640 ∧ l2.la4 = 1199040 ∧ l2.la = 299760 ∧ l3.la4 = 1199160 ∧ l3.la = 299790 ∧
      l3.count = 3 ∧ inBand 262000 300000 = false ∧ inBand 270000 300000 = true := by decide

/-- Section 3.8: station 7 with its rack, its peers and the shuttle's work. -/
def forecastState : State :=
  { work with
    bac := { work.bac with current := some (bar none), rack := [bar none, bar none] }
    fsq := { work.fsq with st := .ready, begun := true, pKnown := true, pCut := some (420000 - 187340) }
    sfc := { work.sfc with ta8 := 14720 }
    mpt := { work.mpt with job := some { job with q := 2400 }, lotCount := 400 }
    psr := { work.psr with
      shuttle := .busy 2 1 70
      peers := [⟨3, 0, 1, 16, 0, false, .run, some ⟨9, 1, 60⟩⟩, ⟨4, 0, 1, 16, 0, false, .run, some ⟨11, 1, 140⟩⟩,
        ⟨12, 0, 1, 16, 0, false, .run, some ⟨11, 1, 80⟩⟩, ⟨20, 0, 1, 16, 0, false, .run, none⟩] } }

/-- Section 3.8: the forecast and the need. -/
theorem test_worked_forecast :
    let j := { job with q := 2400 }
    let v := forecastState.forecastOf j
    v.k = 2 ∧ v.stock = 500 ∧ v.rest = 2000 ∧ v.usable = 500 ∧ v.starveS = 9290 ∧ v.baseSlack = 9195 ∧ v.baseBand = 11 ∧
      v.qAhead = 470 ∧ v.escSlack = 8725 ∧ v.escBand = 11 ∧ forecastState.needActive j v = true := by decide

/-- Sections 3.8.1 and 3.8.2: the average after an offered interval. -/
theorem test_offered_intervals :
    offerInterval 14720 1912 1800 = 14792 ∧ offerInterval 14792 16000 1800 = 14792 ∧
      offerInterval 14792 9000 1800 = 20143 := by decide

/-- Section 1.11: CUT_DONE at P_now = 122,338 in CUTTING with the encoder still (E = 100: one LU an edge). -/
theorem test_cut_of_the_worked_bar :
    let s := { inState .cutting work with
      bac := { work.bac with current := some (bar (some 299640)) }
      fsq := { (inState .cutting work).fsq with e := 122338, pCut := some 120860, still := 20 } }
    (after .cutDoneEdge s).fsq.pCut = some 122338 ∧ (after .cutDoneEdge s).np = 190 ∧
      (after .cutDoneEdge s).mpt.lotCount = 1 ∧ (after .cutDoneEdge s).fsq.st = .ready := by
  decide

/-! ## Bytes and frames, written out from chapter 12 -/

/-- Section 12.2: command bytes and payloads. -/
theorem test_port_frames :
    portCommand true [0x60, 5, 0, 0, 1, 0, 2] = .watchSet [0, 0, 1, 0, 2] ∧ portCommand true [0x51, 0] = .faultClear [] ∧
      portCommand true [0x01, 0, 9] = .readResponse 3 ∧ portCommand false [0x01, 0] = .readResponse 3 ∧
      portCommand true [0x31, 1, 4] = .flagsClear [4] ∧ portCommand true [0x31, 2, 4] = .malformedFrame 3 ∧
      portCommand false [0x31, 1, 4] = .malformedFrame 4 ∧ portCommand true [0x13, 0] = .unknownCommand 0x13 [] := by decide

set_option maxRecDepth 20000 in
/-- Section 12.1: arbitration values bit by bit and payloads: a CLAIM of pocket 9 at arrival distance 5 from station 7 is class
001, key 0101, 000, address 000111; DROP, RELEASE, DISPATCH, PRESENCE and the shuttle's BUSY likewise. -/
theorem test_telegrams :
    telegramCommand ⟨0b0010101000000111, [9]⟩ = .claim 7 9 ∧
      telegramCommand ⟨0b0000000000000111, [1, 9, 2, 0x01, 0x02]⟩ = .drop 7 9 2 0x0102 ∧
      telegramCommand ⟨0b0000000000000111, [2, 9]⟩ = .release 7 9 ∧
      telegramCommand ⟨0b0101011000000111, [11, 4, 0, 95]⟩ = .dispatch 7 11 4 95 ∧
      telegramCommand ⟨0b1000000000000111, [6, 5, 16, 0x12]⟩ = .presence 7 6 5 16 0x12 0 0 0 ∧
      telegramCommand ⟨0b0110000000111111, [2, 7, 4, 0, 70]⟩ = .shuttleBusy 7 4 70 ∧
      telegramCommand ⟨0b0110000000111111, [3, 7, 4]⟩ = .shuttleDelivered 7 4 ∧
      telegramCommand ⟨0b0110000000111111, [4, 1, 7]⟩ = .shuttleFault 1 7 ∧
      telegramCommand ⟨0b0110000000111111, [1]⟩ = .shuttleIdle := by decide

set_option maxRecDepth 20000 in
/-- R69 to R71, R76: a sent frame is received, and one with a bit turned is not. -/
theorem test_frame_on_the_line :
    let f : Frame := ⟨0b0010101000000111, [9]⟩
    receive f.bits = .good f ∧ receive (f.bits.set 5 (!(f.bits[5]?).getD false)) ≠ .good f := by decide +kernel

/-- No row of the table gives bits. -/
theorem test_table_gives_no_bits (n w : Nat) (s : State) : decodeTableWord n w = none ∧ s.withFetchWord n w = s :=
  ⟨rfl, rfl⟩

/-! ## Ill-formed commands -/

theorem test_wf_refuses_long_payload : (Instr.jobRead (List.replicate 256 0)).wf = false := by decide +kernel
theorem test_wf_refuses_short_record : (Instr.configReadDone []).wf = false ∧ (Instr.configReadbackDone []).wf = false := by
  decide
theorem test_wf_refuses_known_command : (Instr.unknownCommand 0x10 []).wf = false := by decide
theorem test_wf_refuses_frame_of_one_byte : (Instr.readResponse 1).wf = false ∧ (Instr.readResponse 2).wf = true := by decide
theorem test_wf_refuses_sender : (Instr.claim 63 1).wf = false ∧ (Instr.dispatch 0 1 1 1).wf = false := by decide
theorem test_wf_refuses_unread_fields : (Instr.presence 7 6 5 16 0 1 0 0).wf = false := by decide
theorem test_wf_refuses_bar_type : (Instr.stockOutHoldEnd 16).wf = false ∧ (Instr.stockOutHoldEnd 0).wf = false := by decide
theorem test_wf_refuses_owned_frame : (Instr.goodFrameNoOwner 1 7 [9]).wf = false := by decide
theorem test_wf_refuses_unsettled_level : (Instr.settleTimeout 0 1).wf = false := by decide

/-! ## The hypotheses of the statements are met -/

/-- A state with three rack bars, three part records, two queued telegrams and two peers. -/
def busy : State :=
  { work with
    bac := { work.bac with rack := [bar none, bar none, bar none] }
    uns := { work.uns with
      hold := [⟨0, some 1, .good, 5, some .shuttle, false⟩, ⟨1, some 1, .good, 6, some .shuttle, false⟩,
        ⟨2, none, .unknown, 7, none, false⟩]
      seq := 3, caught := 4, binned := 1, closing := [⟨3, .awaitRelease, none⟩], active := [⟨5, .held⟩, ⟨6, .held⟩, ⟨7, .queued⟩] }
    alc := { work.alc with queue := [⟨.release 3, 7, [2, 3], 0, false, false, false⟩, ⟨.claim 7, 0x2A07, [7], 7, false, true, false⟩] }
    psr := { work.psr with peers := [⟨4, 0, 1, 16, 0, false, .run, none⟩, ⟨9, 4, 1, 16, 0, false, .run, none⟩] } }

/-- The queue of commands holds this one. -/
def given (i : Instr) (s : State) : State := { s with pending := [i] }

theorem test_step_takes_front : (given .recessiveBitsSeen work).pending = .recessiveBitsSeen :: [] := rfl

/-- Both cases of the idle step, and both sides of the counts that wrap in it. -/
theorem test_idle_cases :
    up.pending = [] ∧ up.due = [] ∧ ({ up with psr := { up.psr with second := some 0 } } : State).due ≠ [] ∧
      (∃ s : State, s.due = [] ∧ s.running = true ∧ s.sfc.cutClock = some 1048575 ∧ s.sfc.cutSub = 9 ∧ s.uns.secSub = 999) :=
  ⟨by decide +kernel, by decide +kernel, by decide +kernel,
    { up with sfc := { up.sfc with cutClock := some 1048575, cutSub := 9 }, uns := { up.uns with secSub := 999 } },
    by decide +kernel⟩

/-- The station with the line unit like this, the world driving these bits. -/
def onBits (u : LineUnit) (q : List TxEntry) (other : List Bool) : State :=
  { up with alc := { up.alc with unit := u, queue := q }, bits := other }

/-- R72, R74 to R77: the tenth recessive bit waited for, a start bit taken and one not, the arbitration lost at the first
and the last bit of its field, a stuff bit within it and an end bit read back wrong, an objection of a receiver to the own
frame, and a frame with its condition passing. -/
theorem test_bit_times :
    let f : Frame := ⟨0b0010101000000111, [9]⟩
    let own : TxEntry := ⟨.claim 9, 0b0010101000000111, [9], 0, false, true, false⟩
    let after (s : State) := s.idle
    let waits : State := let s := onBits ⟨[], 9, .free true⟩ [] [true]
      { s with alc := { s.alc with waitGap := true } }
    let sent (n : Nat) (other : Bool) := onBits ⟨f.bits.drop n, 0, .reading (f.bits.take n) .plain⟩ [own] [other]
    (after waits).pending = [.recessiveBitsSeen] ∧ (after waits).alc.unit.gap = 10 ∧
      (after (onBits ⟨[], 3, .free true⟩ [] [false])).alc.unit = ⟨[], 0, .reading [false] .plain⟩ ∧
      (after (onBits ⟨[], 3, .free false⟩ [] [false])).alc.unit = ⟨[], 0, .free false⟩ ∧
      (after (sent 3 false)).pending = [.arbitrationLost] ∧ (after (sent 17 false)).pending = [.arbitrationLost] ∧
      (after (sent 14 false)).pending = [.attemptFailed] ∧
      (after (sent (f.bits.length - 3) false)).pending = [.attemptFailed] ∧
      (after (sent (f.bits.length - 1) false)).pending = [.attemptFailed] ∧
      (after (sent (f.bits.length - 1) true)).pending = [.ownClaimCompleted] ∧
      (after (onBits ⟨[], 0, .reading (f.bits.take (f.bits.length - 1)) .plain⟩ [] [true])).pending = [.claim 7 9] ∧
      (after (onBits ⟨[], 0, .reading (f.bits.take (f.bits.length - 3)) .withdrawn⟩ [] [false])).pending =
        [.unreadableFrame 1 .dominantEnd true] ∧
      (after (onBits ⟨[], 0, .passing 2 .plain⟩ [] [true])).alc.unit.rx = .passing 1 .plain ∧
      (after (onBits ⟨[], 4, .passing 1 .plain⟩ [] [true])).alc.unit = ⟨[], 0, .free false⟩ ∧
      ({ up with alc := { up.alc with st := .off, unit := ⟨[false], 0, .free true⟩ } } : State).alc.alnTx = true ∧
      (up.due = [] ∧ (sent 3 false).due = []) := by decide +kernel

/-- R72, R75, R76, R85: recessive bits read of a frame that is over count for the gap, to the end of the window of an abandoned
one too; a frame abandoned after a failed attempt is read on, without objection and without being unreadable, and a good one with
the own address is found. -/
theorem test_abandoned_frames :
    let f : Frame := ⟨0b0010101000000111, [9]⟩
    let own : TxEntry := ⟨.claim 9, 0b0010101000000111, [9], 0, false, true, false⟩
    let failed := Sys2Proof.Tests.after .attemptFailed (onBits ⟨[true, true], 0, .reading (f.bits.take 30) .plain⟩ [own] [])
    let reads (u : LineUnit) (other : Bool) : State := (onBits u [] [other]).idle
    let rest (how : Hearing) : LineUnit := ⟨[], 6, .reading (false :: List.replicate 6 true) how⟩
    failed.alc.unit = ⟨[], 0, .reading (f.bits.take 30) .abandoned⟩ ∧
      (reads (rest .abandoned) true).pending = [] ∧ (reads (rest .abandoned) true).alc.unit = ⟨[], 7, .free false⟩ ∧
      (reads (rest .plain) true).pending = [.unreadableFrame 7 .stuffViolation false] ∧
      (reads ⟨[], 2, .reading (f.bits.take (f.bits.length - 1)) .abandoned⟩ true).pending = [.claim 7 9] ∧
      (reads ⟨[], 2, .reading (f.bits.take (f.bits.length - 1)) .abandoned⟩ true).alc.unit = ⟨[], 3, .free false⟩ ∧
      (reads ⟨[], 4, .passing 1 .abandoned⟩ true).alc.unit = ⟨[], 5, .free false⟩ ∧
      (reads ⟨[], 4, .passing 1 .abandoned⟩ false).alc.unit = ⟨[], 0, .free false⟩ ∧
      (Sys2Proof.Tests.after (.claim 7 9) up).alc.st = .quiet := by decide +kernel

/-- R72, R74, R90: the SAFE clear before the first bit, in the arbitration field and past it; after a cut in the arbitration a
rival's dominant bit makes the frame one received, its window kept, and with no rival it ends without an objection, its gap
counted on. -/
theorem test_frames_cut_off :
    let f : Frame := ⟨0b0010101000000111, [9]⟩
    let own : TxEntry := ⟨.claim 9, 0b0010101000000111, [9], 0, false, true, false⟩
    let cut (n : Nat) : LineUnit := (Sys2Proof.Tests.after (.guardOpen false)
      (onBits ⟨f.bits.drop n, 10 - 10 * n, .reading (f.bits.take n) .plain⟩ [own] [])).alc.unit
    let reads (u : LineUnit) (other : Bool) : State := (onBits u [] [other]).idle
    let alone : LineUnit := ⟨[], 6, .reading (false :: List.replicate 6 true) .cutOff⟩
    let last : LineUnit := ⟨[], 2, .reading (f.bits.take (f.bits.length - 1)) .plain⟩
    cut 0 = ⟨[], 10, .free true⟩ ∧ cut 5 = ⟨[], 0, .reading (f.bits.take 5) .cutOff⟩ ∧
      cut 18 = ⟨[], 0, .reading (f.bits.take 18) .abandoned⟩ ∧
      (reads (cut 5) false).alc.unit = ⟨[], 0, .reading (f.bits.take 5 ++ [false]) .plain⟩ ∧
      (reads (cut 5) true).alc.unit = ⟨[], 1, .reading (f.bits.take 5 ++ [true]) .cutOff⟩ ∧
      (reads last true).pending = [.claim 7 9] ∧ (reads last true).alc.unit = ⟨[], 0, .free false⟩ ∧
      (reads alone true).pending = [] ∧ (reads alone true).alc.unit = ⟨[], 7, .free false⟩ := by decide +kernel

/-- R69, R76: six dominant bits are followed by a dominant one at the seventh; a length of 13; each found at its own bit. -/
theorem test_flaws_are_found_at_their_bit :
    receive (List.replicate 6 false) = .incomplete ∧ receive (List.replicate 7 false) = .flawed .stuffViolation ∧
      (let head := stuff true 0 (false :: (bitsOf 16 0x2A07 ++ bitsOf 4 13))
       receive head = .flawed .badLength ∧ receive head.dropLast = .incomplete) := by decide +kernel

/-- R187 to R191, R197: the pins follow at the sample instant, keep their state under HOLD in SAFE, are cut off before a
configuration; the port byte is formed where CS_N falls. -/
theorem test_pins_at_the_tick :
    let s : State := { up with fsq := { up.fsq with feedDone := true } }
    let held : State := { safe s with
      stu := { up.stu with cfg := some { cfg with safeSel := Vector.replicate 11 .hold } }
      sig := { up.sig with outPins := Vector.replicate 13 .high }, fsq := { up.fsq with feedDone := false } }
    let low (b : Bool) (s : State) : State := { s with samples := [⟨s.sig.pins, b, [true, false]⟩] }
    s.due = [] ∧ s.pinState .feedDone = .highZ ∧ s.tick.pinState .feedDone = .high ∧ s.tick.pinState .eject = .low ∧
      held.tick.pinState .feedDone = .high ∧ (safe s).tick.pinState .feedDone = .low ∧
      (safe s).tick.pinState .machineHold = .high ∧ State.reset.tick.pinState .attn = .highZ ∧
      (low true up).tick.mpt.selected = some 0 ∧ (low true up).tick.bits = [true, false] ∧
      (low false (low true up).tick).tick.mpt.selected = none ∧ up.tick.mpt.selected = none ∧
      (up.raise .barOut).tick.pinState .attn = .high := by decide +kernel

/-- Every filter like this, the pins at these levels before the next sample and in it. -/
def edged (f : Filter) (before next : InputBits) : State :=
  { up with
    uns := { up.uns with confirm := some 5 }
    sig := { up.sig with filters := Vector.replicate 21 f, pins := ⟨before, 0⟩ }
    samples := [⟨⟨next, 0⟩, false, []⟩] }

/-- R176 to R179, R184, R185, R192: what every accepted edge queues and in which order, rising, falling and as a first level; one
sample short of the length nothing but the belt and encoder pulses. -/
theorem test_edges_are_queued :
    let all : InputBits := BitVec.allOnes 21
    (edged ⟨some false, 3⟩ 0 all).due = [] ∧
      (edged ⟨some false, 3⟩ 0 all).idle.pending = [.encoderEdge true true, .homeSwEdge true, .feedReqRaised, .cutDoneEdge,
        .colletOpenAsserted, .fwdLimitActive true, .guardOpen true, .channelChange true, .spindleEntryEdge true, .rackEntryEdge,
        .remnantEdge, .trayBottomChange true, .trayEntryEdge, .binEntryEdge, .dropSenseEdge, .indexEdge, .homeEdge] ∧
      (edged ⟨some true, 3⟩ all 0).idle.pending = [.encoderEdge false false, .homeSwEdge false, .feedReqDropped,
        .colletOpenDropped, .fwdLimitActive false, .guardOpen false, .channelChange false, .spindleEntryEdge false,
        .trayBottomChange false] ∧
      (edged ⟨some false, 2⟩ 0 all).idle.pending = [.encoderEdge true true, .indexEdge, .homeEdge] ∧
      (edged ⟨none, 3⟩ all all).idle.pending = [.encoderEdge true true, .feedReqRaised, .colletOpenAsserted, .fwdLimitActive true,
        .channelChange true, .trayBottomChange true] ∧
      (edged ⟨none, 3⟩ 0 0).idle.pending = [.encoderEdge false false] := by decide +kernel

theorem test_filter_bounds :
    (⟨some true, 2⟩ : Filter).acc = some true ∧ (2 + 1 < 4) ∧ (4 ≤ 3 + 1) ∧
      (⟨some true, 3⟩ : Filter).sample 4 true false = (⟨some false, 0⟩, some false) ∧
      (⟨none, 0⟩ : Filter).sample 2 true true = (⟨none, 1⟩, none) ∧
      (⟨none, 1⟩ : Filter).sample 2 true true = (⟨some true, 0⟩, some true) ∧
      (⟨none, 1⟩ : Filter).sample 2 false true = (⟨none, 1⟩, none) ∧
      (⟨none, 3⟩ : Filter).sample 4 false false = (⟨some false, 0⟩, some false) := by
  decide

/-- The laws hold of a state at their bounds, and it steps. -/
theorem test_laws_hold_at_bounds :
    rackLaw busy = true ∧ busy.waitingBars = 3 ∧ partLaw busy ∧ heldLaw (safe busy) = true ∧ (safe busy).feedHeld = true ∧
      queueLaw busy ∧ peerLaw busy ∧ claimLaw busy = true ∧ pocketLaw busy ∧ (∃ t, step busy = .next t) ∧
      ∃ t, step (safe busy) = .next t :=
  ⟨by decide +kernel, by decide +kernel, by unfold partLaw; decide +kernel, by decide +kernel, by decide +kernel,
    by unfold queueLaw; decide +kernel, by unfold peerLaw; decide +kernel, by decide +kernel, by unfold pocketLaw; decide +kernel,
    ⟨_, rfl⟩, ⟨_, rfl⟩⟩

theorem test_configuration_stands_applies :
    let s := given .indexEdge work
    s.running = true ∧ s.stu.load = none ∧ s.pending.head? ≠ some .powerOnReset ∧ ∃ t, step s = .next t :=
  ⟨by decide +kernel, by decide +kernel, by decide +kernel, ⟨_, rfl⟩⟩

theorem test_encoder_changes_applies :
    let s := given (.encoderEdge true false) { work with sig := { work.sig with phase := some (false, false) } }
    ∃ t, step s = .next t ∧ t.fsq.e ≠ s.fsq.e := ⟨_, rfl, by decide +kernel⟩

/-- The payload of a JOB SET of the job of section 1.11. -/
def jobPayload : List Byte := [0x04, 0xE2, 0, 200, 0, 30, 0x3A, 0x98, 0x01, 0xF4, 4, 0x07, 0x08, 0x07, 0xD0]

theorem test_job_changes_applies :
    let s := given (.jobSet jobPayload) (inState .noJob up)
    ∃ t, step s = .next t ∧ t.mpt.job = some job ∧
      t.mpt.job.map (fun j => { j with q := 0 }) ≠ s.mpt.job.map (fun j => { j with q := 0 }) :=
  ⟨_, rfl, by decide +kernel, by decide +kernel⟩

theorem test_safe_is_left_applies :
    let s := given (.faultClear []) (safe work)
    s.inSafe = true ∧ ∃ t, step s = .next t ∧ t.inSafe = false := ⟨by decide +kernel, _, rfl, by decide +kernel⟩

theorem test_words_applies :
    (List.replicate 12 (255 : Byte)).length ≤ 12 ∧ (Instr.watchSet [1, 2, 3, 4, 1]).wf = true ∧
      portFrame (.watchSet [1, 2, 3, 4, 1]) = some [0x60, 5, 1, 2, 3, 4, 1] ∧ (Instr.dispatch 7 15 4 95).wf = true ∧
      telegramFrame 15 (.dispatch 7 15 4 95) = some ⟨0x5E07, [15, 4, 0, 95]⟩ ∧ (Instr.claim 62 127).wf = true ∧
      telegramFrame 15 (.claim 62 127) = some ⟨0x3E3E, [127]⟩ := by decide +kernel

/-! ### Start-up -/

/-- A phase of the start. -/
def inPhase (p : Phase) : State := { State.reset with stu := { Stu.reset with phase := p, attempts := 2 } }

/-- A record of sum 0: all bytes 0. -/
def zeros : List Byte := List.replicate 128 0

theorem test_start_applies :
    (inPhase .straps).stu.phase = .straps ∧ (inPhase .reading).stu.phase = .reading ∧ (inPhase .reading).stu.retry = none ∧
      3 ≤ (inPhase .reading).stu.attempts + 1 ∧ wordSum [0, 1] ≠ 0 ∧ wordSum zeros = 0 ∧ (readRecord zeros).2 = true := by
  decide +kernel

/-- A record of the configuration above, section 12.4, with the sum word left 0: read without a clamp. -/
def goodRecord : List Byte :=
  [1, 16, 5, 2, 8, 2, 11, 10, 10, 4, 4, 4, 4, 0, 95, 0x11, 0x94, 0, 20, 0x03, 0xE8, 0, 100, 0, 40, 0x01, 0xF4, 0, 100] ++
    [0x00, 0x05, 0xCC, 0x60, 0x00, 0x06, 0x68, 0xA0, 0x00, 0x06, 0x1A, 0x80] ++ [0, 0, 0, 0, 0] ++ [0x54, 0, 0] ++
    List.replicate 16 1 ++ [0] ++ (List.replicate 15 [0x04, 0x93, 0xE0, 1]).flatten ++ [0, 0]

theorem test_record_is_read_as_given :
    goodRecord.length = 128 ∧ (readRecord goodRecord).2 = false ∧ (readRecord goodRecord).1.xFace = 420000 ∧
      (readRecord goodRecord).1.safeSel[0]? = some .off := by decide +kernel

/-- R188, R216, section 12.4: polarities and safe states as given, a pusher output's ON clamped to OFF, stock codes 0 and 3 read as
BARRED with the mark, the lock bit beside any of them. -/
theorem test_record_polarities_safe_states_stock :
    let put (r : List Byte) (l : List (Nat × Byte)) : List Byte := l.foldl (fun r e => r.set e.1 e.2) r
    let given := put goodRecord [(41, 1), (42, 2), (43, 3), (44, 0x0A), (45, 0xBC), (47, 0x1B), (48, 0xE4), (77, 0x81), (81, 2)]
    let clamped := put given [(46, 0x94), (69, 0x80), (73, 3)]
    let g := (readRecord given).1
    let c := (readRecord clamped).1
    (readRecord given).2 = false ∧ g.inPol = 0x010203 ∧ g.outPol = 0x0ABC ∧
      g.safeSel = #v[.off, .off, .off, .hold, .hold, .off, .on, .float, .float, .on, .off] ∧
      (g.barTypes[2].stock, g.barTypes[2].locked) = (.stocked, true) ∧ (g.barTypes[3].stock, g.barTypes[3].locked) = (.barred, false) ∧
      (readRecord clamped).2 = true ∧ c.safeSel[0] = .off ∧ c.safeSel[6] = .on ∧ c.inPol = 0x010203 ∧
      (c.barTypes[0].stock, c.barTypes[0].locked) = (.barred, true) ∧ (c.barTypes[1].stock, c.barTypes[1].locked) = (.barred, false) := by
  decide +kernel

/-- The join with every input settled, the cover open and a bar in the channel; and with nothing settled. -/
theorem test_join_applies :
    let s := inPhase .settling
    let levels : InputBits := 1#21 <<< 9
    s.stu.phase = .settling ∧ (∀ j ∈ Input.all, (s.sig.filters[j.idx]).acc = none) ∧ s.bac.current = none ∧
      s.flt.level = .normal ∧ (after (.join levels) s).inp .channel = true ∧ (after (.join levels) s).inp .guard = false ∧
      (after (.join levels) s).inSafe = true ∧ (after (.settleTimeout 0 0) s).fsq.st = .homing := by decide +kernel

/-- The join with a latched cut, a latched belt pulse and a part at the tray bottom; and with an accepted level kept. -/
theorem test_join_records_and_consumes :
    let s : State := { inPhase .settling with
      stu := { (inPhase .settling).stu with cfg := some cfg }
      sig := { State.reset.sig with cutLatch := some (true, false), indexLatch := true } }
    let levels : InputBits := setBit (setBit 0 13 true) 8 true
    let t := after (.join levels) s
    let k := s.setLevel .index true
    s.running = false ∧ t.inp .trayBottom = true ∧ t.inp .guard = true ∧ t.sig.cutLatch = none ∧ t.sig.indexLatch = false ∧
      t.flt.last = some (.unexpectedCut, none) ∧ t.uns.hold = [⟨0, none, .unknown, 0, none, false⟩] ∧ t.uns.caught = 1 ∧
      s.uns.closing = [] ∧ s.uns.active = [] ∧ (k.sig.filters[Input.index.idx]).acc = some (true && true) ∧
      (after (.settleTimeout (1#21 <<< 17) (1#21 <<< 17)) k).inp .index = true ∧
      (after (.settleTimeout 0 0) s).uns.hold = [] := by decide +kernel

/-! ### The machine port -/

/-- The response buffer holds this. -/
def withBuffer (b : Buffer) (s : State) : State := { s with mpt := { s.mpt with buffer := b } }

/-- In another start phase. -/
def inPhaseOf (p : Phase) (s : State) : State := { s with stu := { s.stu with phase := p } }

/-- One command for each of the checks 1 to 5, failing there. -/
theorem test_port_checks_apply :
    let c (i : Instr) := i.wf = true ∧ (portBody i).isSome = true
    c (.unknownCommand 0x13 []) ∧ commandLength 0x13 = none ∧ c (.jobRead []) ∧ c (.unknownCommand 0x01 [9]) ∧
      commandLength 0x01 ≠ some [(9 : Byte)].length ∧ c (.faultClear []) ∧ needsSetup (.faultClear []) = true ∧
      up.inp .setupKey = true ∧ (up.setLevel .setupKey false).inp .setupKey = false ∧
      up.mpt.takes = true ∧ (withBuffer (.pending none) up).mpt.buffer = .pending none ∧
      (inPhaseOf .settling up).stu.phase = .settling ∧ (inPhaseOf .unconfigured up).stu.phase = .unconfigured := by
  decide +kernel

/-- What the port answers to each, by its status code (section 12.2). -/
theorem test_port_answers :
    let st (i : Instr) (s : State) := match (after i s).mpt.buffer with
      | .pending (some r) => some r.status.code
      | _ => none
    st (.unknownCommand 0x13 []) up = some 8 ∧ st (.jobRead []) (inPhaseOf .settling up) = some 2 ∧
      st (.jobRead []) (inPhaseOf .unconfigured up) = some 7 ∧ st (.unknownCommand 0x01 [9]) up = some 4 ∧
      st (.faultClear []) (up.setLevel .setupKey false) = some 3 ∧ st (.statusRead [1, 0]) (inPhaseOf .settling up) = some 0 ∧
      st (.faultClear []) up = some 6 ∧ st (.malformedFrame 0) up = some 4 := by decide +kernel

theorem test_frames_apply :
    (withBuffer (.ready ⟨.done, [1]⟩) up).mpt.buffer = .ready ⟨.done, [1]⟩ ∧
      (withBuffer (.pending (some ⟨.done, [1]⟩)) up).mpt.buffer = .pending (some ⟨.done, [1]⟩) ∧
      (after (.readResponse 5) (withBuffer (.ready ⟨.done, [1]⟩) up)).mpt.miso = [2, 0, 0, 1, 1] ∧
      (after (.readResponse 3) (withBuffer (.ready ⟨.done, [1]⟩) up)).mpt.miso = [2, 0, 0] ∧
      (after (.readResponse 4) (up.raise .barOut)).mpt.miso = [0x80, 0, 1, 0] ∧
      (after (.malformedFrame 3) up).mpt.miso = [0, 0, 0] ∧ (after (.malformedFrame 0) up).mpt.miso = [] := by decide +kernel

theorem test_reads_apply :
    work.mpt.takes = true ∧ work.running = true ∧ work.mpt.job = some job ∧ job.inRange = true ∧ job.q < 65536 ∧
      up.mpt.job = none := by decide +kernel

/-- A command is served, on a state of the feed engine. -/
theorem test_port_commands_served :
    served (.jobSet jobPayload) (inState .noJob up) = true ∧ jobOf jobPayload = job ∧ job.inRange = true ∧
      ((inState .noJob up).typeCfg 4).stock = .stocked ∧ served (.lotSet [0, 5, 0, 0, 5, 0, 1]) (inState .lotDone work) = true ∧
      served (.flagsSet [31]) work = true ∧ served (.flagsClear [32]) work = true ∧ served (.flagsFlip [1]) work = true ∧
      served (.eventClaim []) work = true ∧ served (.resume [1, 2]) work = true ∧ served (.faultClear []) work = true ∧
      served (.restart []) work = true := by decide +kernel

/-- JOB SET refused: in another engine state, out of range, with a barred type. -/
theorem test_job_set_refusals_apply :
    served (.jobSet (List.replicate 15 0)) (inState .noJob up) = true ∧ (jobOf (List.replicate 15 0)).inRange = false ∧
      (inState .homing up).fsq.st = .homing ∧
      (({ up with stu := { up.stu with cfg := some { cfg with
        barTypes := Vector.replicate 15 { nominal := 5000, stock := .barred, locked := false } } } } : State).typeCfg 4).stock =
        .barred := by decide +kernel

/-- Two sources claimable, of equal priority: the lower ID is chosen. -/
theorem test_event_claim_applies :
    let s := (work.raise .lotDone).raise .barOut
    s.mpt.sources[3].pending = true ∧ s.mpt.sources[4].pending = true ∧ s.mpt.sources[3].inService = false ∧
      s.mpt.threshold < s.mpt.sources[3].priority ∧ s.mpt.sources[4].priority = s.mpt.sources[3].priority ∧
      (after (.eventClaim []) s).mpt.sources[3].inService = true ∧ (after (.eventClaim []) s).mpt.sources[4].inService = false ∧
      (∀ k : Fin 16, work.mpt.sources[k].pending = false) := by decide +kernel

theorem test_event_marks_apply :
    work.running = true ∧ work.mpt.takes = true ∧ (1 : Byte).toNat = (0 : Fin 16).val + 1 ∧
      (16 : Byte).toNat = (15 : Fin 16).val + 1 ∧ 16 < (17 : Byte).toNat ∧
      (after (.eventClaim []) (work.raise .barOut)).mpt.sources[3].inService = true ∧ work.mpt.sources[3].inService = false := by
  decide +kernel

/-- The engines paused at ALERT. -/
def paused (k : FaultKind) (st : FeedState) : State :=
  { inState st work with flt := { work.flt with
      level := .alert, feedPaused := some (k, st), unloadPaused := some (.dropUnconfirmed, .trayEmpty) } }

theorem test_resume_applies :
    let s := withMove { forward 122340 with phase := .interrupted } (paused .pusherStall .feeding)
    let still (n : Nat) : State := { s with fsq := { s.fsq with still := n } }
    let r := paused .measureFail .homing
    served (.resume [1, 2]) s = true ∧ s.flt.level = .alert ∧ s.flt.feedPaused = some (.pusherStall, .feeding) ∧
      s.flt.unloadPaused.isSome = true ∧ skipEffect .pusherStall .feeding s.fsq.st ≠ .refused ∧
      skipEffect .pusherStall .homing (paused .pusherStall .homing).fsq.st = .refused ∧ served (.resume [2, 1]) r = true ∧
      served (.resume [3, 3]) s = true ∧ work.flt.feedPaused = none ∧ work.flt.unloadPaused = none ∧
      (after (.resume [1, 2]) (still 20)).fsq.feedDone = true ∧ (after (.resume [1, 2]) (still 19)).fsq.feedDone = false ∧
      (after (.resume [1, 2]) (still 19)).coasting = true ∧ served (.resume [1, 0]) s = true := by decide +kernel

theorem test_fault_clear_and_restart_apply :
    (safe work).inSafe = true ∧ work.inp .guard = true ∧ work.inSafe = false ∧ up.inp .guard = false ∧
      served (.restart []) (safe work) = true ∧ (after (.faultClear []) (safe work)).flt.level = .normal := by
  decide +kernel

theorem test_watch_applies :
    work.running = true ∧ work.mpt.takes = true ∧ (3 : Byte) ≠ 1 ∧ (3 : Byte) ≠ 2 ∧
      (after (.watchSet [0x7F, 255, 255, 255, 2]) work).fsq.watchPos = some 400000 ∧
      (after (.watchSet [255, 255, 255, 255, 1]) work).fsq.watchPos = some 0 := by decide +kernel

theorem test_config_load_applies :
    let s := (inPhase .unconfigured).setLevel .setupKey true
    s.inp .setupKey = true ∧ (up.stu.phase = .running ∧ up.inp .setupKey = true) ∧ zeros.length = 128 ∧ s.mpt.takes = true ∧ s.stu.phase = .unconfigured ∧ (readRecord zeros).2 = true ∧
      (inPhase .running).running = true ∧
      wordSum (goodRecord.take 126 ++ [BitVec.ofNat 8 ((65536 - wordSum goodRecord) / 256),
        BitVec.ofNat 8 (65536 - wordSum goodRecord)]) = 0 ∧
      (readRecord (goodRecord.take 126 ++ [BitVec.ofNat 8 ((65536 - wordSum goodRecord) / 256),
        BitVec.ofNat 8 (65536 - wordSum goodRecord)])).2 = false := by decide +kernel

/-- A CONFIG LOAD being written: its last page, and its read-back. -/
theorem test_config_pages_apply :
    let s : State := { inPhase .unconfigured with stu := { (inPhase .unconfigured).stu with load := some ⟨zeros, 7, some 20⟩ } }
    s.stu.load = some ⟨zeros, 7, some 20⟩ ∧ (after .configPageWritten s).stu.load = some ⟨zeros, 8, none⟩ ∧
      (after (.configReadbackDone zeros) (after .configPageWritten s)).stu.phase = .straps ∧
      (after (.configReadbackDone []) (after .configPageWritten s)).stu.reason = some .memory ∧
      (after .configReadFail (after .configPageWritten s)).stu.load = none := by decide +kernel

/-! ### The feed sequencer -/

/-- READY with a bar cut at 120,860. -/
def ready : State :=
  { inState .ready work with
    bac := { work.bac with current := some (bar (some 299640)) }
    fsq := { (inState .ready work).fsq with e := 120860, pCut := some 120860, still := 20 } }

/-- FEEDING with FEED_DONE asserted, at 122,338. -/
def fed : State := { ready with fsq := { ready.fsq with st := .feeding, e := 122338, feedDone := true, target := some 122340 } }

theorem test_feed_request_applies :
    let s : State := { ready with fsq := { ready.fsq with request := true } }
    s.mpt.job = some job ∧ s.fsq.pCut = some 120860 ∧ s.fsq.request = true ∧ s.fsq.st = .ready ∧ s.feedHeld = false ∧
      s.uns.hold.length ≤ 5 ∧ s.bac.bin < s.cfg.binCap ∧ s.uns.catching = none ∧ s.fsq.feedDone = false ∧
      (after .feedServe s).fsq.st = .feeding ∧ (after .feedServe s).fsq.target = some 122340 ∧ work.fsq.request = false ∧
      fed.fsq.st = .feeding ∧ fed.fsq.feedDone = true ∧ (inState .feeding work).fsq.feedDone = false ∧
      ready.running = true := by decide +kernel

/-- R24, R26, R32, R72, R192, R214: rows that are due at their bound, and not one short of it. -/
theorem test_rows_are_due :
    let still (n : Nat) : State := withMove { forward 122340 with phase := .coasting } { fed with fsq := { fed.fsq with still := n } }
    let quiet (st : FeedState) (n : Nat) : State := withMove (forward 122340) { inState st ready with
      fsq := { (inState st ready).fsq with quiet := n } }
    let gap (n : Nat) : State := { up with alc := { up.alc with
      unit := ⟨[], n, .free true⟩, queue := [⟨.presence, 0x8007, [], 0, false, false, false⟩] } }
    let straps (n ms : Nat) : State := { State.reset with stu := { Stu.reset with strapLast := some 9, strapRun := n, strapMs := ms } }
    (still 20).due = [.moveSettled] ∧ (still 19).due = [] ∧ (quiet .feeding 500).due = [.pusherStall] ∧
      (quiet .feeding 499).due = [] ∧ (quiet .remeasure 200).due = [.contactFound] ∧ (quiet .remeasure 199).due = [] ∧
      (gap 10).due = [.transmitStart] ∧ (gap 9).due = [] ∧ (straps 4 100).due = [.addressStrapsRead 9] ∧
      (straps 3 100).due = [.strapsTimeout] ∧ (straps 3 99).due = [] ∧
      (quiet .feeding 0).commanded .pushFwd = true ∧ (quiet .feeding 0).commanded .pushRev = false := by decide +kernel

/-- The step of this state is still to begin. -/
def unbegun (st : FeedState) (s : State) : State := { s with fsq := { s.fsq with st := st, begun := false } }

/-- The move that the engine leaves. -/
def moveOf (s : State) : Option Move := s.engine.fsq.move

/-- R24, R25, R29, R30, R38: FEEDING and HOMING begin, with the collet open and closed, and at the home switch. -/
theorem test_moves_begin :
    let closed (s : State) := s.setLevel .colletOpen false
    let feed : State := unbegun .feeding { ready with fsq := { ready.fsq with target := some 500000 } }
    let home := unbegun .homing ready
    moveOf feed = some ⟨.main, .fwd, some 400000, .driving, true, false⟩ ∧ feed.engine.fsq.limit = none ∧
      moveOf (closed feed) = some ⟨.main, .fwd, some 400000, .waiting, false, false⟩ ∧ (closed feed).engine.fsq.limit = some 2000 ∧
      moveOf home = some ⟨.main, .rev, none, .driving, true, false⟩ ∧ home.engine.fsq.limit = some 30000 ∧
      moveOf (home.setLevel .homeSw true) = some ⟨.offSwitch, .fwd, none, .driving, false, false⟩ ∧
      ((home.setLevel .homeSw true).setLevel .fwdLimit true).engine.inSafe = true ∧
      moveOf (closed home) = some ⟨.start, .rev, none, .waiting, false, false⟩ := by decide +kernel

/-- R15, R32 to R36, R42, R43: the other steps begin, and an interrupted move is taken up again. -/
theorem test_steps_begin :
    let full : State := unbegun .barEnd { ready with bac := { ready.bac with tray := 10 } }
    let short : State := { ready with fsq := { ready.fsq with e := 100000 } }
    let latched : State := { ready with sig := { ready.sig with spindleLatch := some 0 } }
    moveOf (unbegun .remeasure ready) = some ⟨.main, .fwd, some 400000, .driving, false, false⟩ ∧
      moveOf (unbegun .measuring latched) = some ⟨.main, .fwd, some 400000, .driving, false, false⟩ ∧
      (unbegun .measuring latched).engine.sig.spindleLatch = none ∧
      ((unbegun .measuring ready).setLevel .spindleEntry true).engine.flt.feedPaused = some (.measureFail, .measuring) ∧
      (unbegun .positioning ready).engine.fsq.st = .ready ∧
      moveOf (unbegun .positioning short) = some ⟨.main, .fwd, some 120860, .driving, true, false⟩ ∧
      full.engine.mpt.sources[8].pending = true ∧ (unbegun .loading ready).engine.fsq.escape = some 300 ∧
      (unbegun .ejecting ready).engine.fsq.eject = some 300 ∧
      moveOf (withMove { forward 122340 with phase := .interrupted } (inState .feeding ready)) =
        some ⟨.main, .fwd, some 122340, .driving, true, false⟩ ∧
      ready.feedHeld = false ∧ ready.sig.cutLatch = none := by decide +kernel

/-- R47: RETRY in the states that begin anew, that go back to 0 first, and that continue; and the way back has settled. -/
theorem test_retry_applies :
    let r (st : FeedState) : State := { inState st ready with fsq := { (inState st ready).fsq with retry := true } }
    let back (st : FeedState) : State := withMove ⟨.homeward, .rev, some 0, .coasting, false, false⟩ (inState st ready)
    moveOf (r .measuring) = some ⟨.homeward, .rev, some 0, .driving, true, false⟩ ∧ moveOf (r .remeasure) = some ⟨.homeward, .rev, some 0, .driving, true, false⟩ ∧
      (r .loading).engine.fsq.escape = some 300 ∧ (r .feeding).engine.fsq.retry = false ∧ (r .barEnd).fsq.begun = true ∧
      (back .remeasure).fsq.still = 20 ∧ moveOf (back .remeasure) = some ⟨.main, .fwd, some 400000, .driving, false, false⟩ ∧
      moveOf (back .measuring) = some ⟨.main, .fwd, some 400000, .driving, false, false⟩ ∧
      ((back .measuring).setLevel .spindleEntry true).engine.flt.feedPaused = some (.measureFail, .measuring) := by decide +kernel

/-- R169, R170: a move that SKIP has ended is over under a WATCH cause; one that only coasts is not. -/
theorem test_skip_under_watch :
    let s (st : FeedState) (halted : Bool) : State :=
      let f := withMove { forward 122340 with phase := .coasting, halted := halted } (inState st ready)
      { f with fsq := { f.fsq with pauseWatch := true } }
    (s .feeding true).flt.feedPaused = none ∧ (s .feeding true).inSafe = false ∧ (s .feeding true).sig.cutLatch = none ∧
      (after .moveSettled (s .feeding true)).fsq.feedDone = true ∧ (after .moveSettled (s .feeding false)).fsq.feedDone = false ∧
      (after .moveSettled (s .positioning true)).fsq.st = .ready ∧ (after .moveSettled (s .barEnd true)).fsq.st = .ejecting ∧
      (after .moveSettled (s .barEnd true)).fsq.begun = false ∧ (s .feeding true).due = [.moveSettled] := by decide +kernel

/-- R24, R25, R38: a request is served to a driving and to a waiting feed, the target beyond P_max recorded uncut. -/
theorem test_feed_serve_moves :
    let s : State := { ready with fsq := { ready.fsq with request := true } }
    let far : State := { s with fsq := { s.fsq with pCut := some 399000, e := 300000 } }
    s.posn = some 120860 ∧ (120860 : Int) < min 122340 s.cfg.pMax - s.cfg.runOn ∧ s.inp .colletOpen = true ∧
      (after .feedServe s).fsq.move = some { forward 122340 with fast := true } ∧
      (after .feedServe (s.setLevel .colletOpen false)).fsq.limit = some 2000 ∧
      (after .feedServe far).fsq.target = some 400480 ∧
      (after .feedServe far).fsq.move.map (·.target) = some (some 400000) := by decide +kernel

/-- The three ways a pulse comes to be accounted, and a cut within the tolerance with the grip reserve left. -/
theorem test_cut_applies :
    let c := inState .cutting fed
    let latched : State := { fed with sig := { fed.sig with cutLatch := some (true, false) } }
    let waiting : State := { c with fsq := { c.fsq with still := 0, cutWait := some (true, true) } }
    c.mpt.job = some job ∧ c.fsq.pKnown = true ∧ c.bac.current.isSome = true ∧ c.fsq.st = .cutting ∧ c.fsq.cutWait = none ∧
      c.sig.cutLatch = none ∧ 20 ≤ c.fsq.still ∧ latched.fsq.feedDone = true ∧ latched.sig.cutLatch = some (true, false) ∧
      waiting.fsq.cutWait = some (true, true) ∧ ((122338 - 120860 : Int) - 1480).natAbs ≤ c.cfg.tol ∧
      (job.lg : Int) ≤ c.cfg.xFace - 122338 ∧ (after .feedReqDropped latched).fsq.pCut = some 122338 ∧
      (after .moveSettled waiting).fsq.st = .ready ∧ (after .feedReqDropped latched).uns.divert = false ∧
      (after .moveSettled waiting).uns.divert = true := by decide +kernel

/-- An untimely pulse in a state at rest, one left standing, and the two cut-off faults of section 1.11. -/
theorem test_cut_faults_apply :
    let late : State := { inState .cutting fed with fsq := { (inState .cutting fed).fsq with e := 405150, pCut := some 402050 } }
    engineRests ready = true ∧ engineRests fed = true ∧ ready.sig.cutLatch = none ∧
      (after .cutDoneEdge ready).flt.last = some (.unexpectedCut, none) ∧ late.flt.level = .normal ∧
      late.cfg.tol < ((405150 - 402050 : Int) - 1480).natAbs ∧ late.cfg.xFace - 405150 < (job.lg : Int) ∧
      (after .cutDoneEdge late).flt.level = .safe ∧ (after .cutDoneEdge late).fsq.st = .barEnd ∧
      (after .cutDoneEdge late).mpt.lotCount = 1 := by decide +kernel

/-- A driving feed, a waiting feed, and the states whose limits run. -/
theorem test_step_faults_apply :
    let d := withMove (forward 122340) (inState .feeding ready)
    let w := withMove { forward 122340 with phase := .waiting } (inState .feeding ready)
    let lim (s : State) : State := { s with fsq := { s.fsq with limit := some 0 } }
    (after .pusherStall d).flt.alert = some ⟨.pusherStall, .feed, .feed .feeding, none, none, true⟩ ∧
      (after .pusherStall d).mpt.sources.toList.map (·.pending) = d.mpt.sources.toList.mapIdx (fun i _ => i == 1) ∧
      (after .pusherStall d).sig = { d.sig with zeroArmed := false } ∧ d.stallable = true ∧ (d.fsq.drives .fwd || d.fsq.drives .rev) = true ∧ ready.stallable = false ∧
      (inState .loading (lim ready)).fsq.limit.isSome = true ∧ (inState .ejecting (lim ready)).fsq.st = .ejecting ∧
      (lim w).waiting = true ∧ (after .colletLimit (lim w)).flt.level = .alert ∧
      (after .colletLimit (safe (lim w))).flt.further = 1 ∧ (after .loadingLimit (inState .loading (lim ready))).flt.feedPaused =
        some (.barNotSeen, .loading) ∧ (paused .wrongBar .noBar).flt.level = .alert := by decide +kernel

theorem test_severe_faults_apply :
    let h : State := { inState .homing ready with fsq := { (inState .homing ready).fsq with limit := some 0 } }
    let r := withMove { forward 0 with dir := .rev, target := none } (inState .homing ready)
    h.running = true ∧ (h.fsq.st == .homing && h.fsq.limit.isSome) = true ∧ (after .homingLimit h).inSafe = true ∧
      (after (.fwdLimitActive true) ready).inSafe = true ∧ (after (.fwdLimitActive true) r).inSafe = false ∧
      (after (.guardOpen false) ready).inSafe = true ∧ (after (.guardOpen false) (safe ready)).flt.further = 1 ∧
      (after (.guardOpen true) ready).inSafe = false := by decide +kernel

/-- R89, R90, R152, R155: SAFE entry with every stage of the claim table, the line taking requests and in QUIET. -/
theorem test_safe_entry_of_the_claims :
    let part (n : Word16) : PartRec := ⟨n, some 1, .sample, 9, some .shuttle, false⟩
    let s (st : LineState) (closing : List ClosingClaim) (active : List ActiveClaim) : State := { ready with
      uns := { ready.uns with
        hold := [part 5, part 6], gate := some 30, confirm := some 50, closing := closing, active := active }
      alc := { ready.alc with st := st, queue := [⟨.drop 2 .good 6, 7, [], 3, false, true, false⟩] } }
    let a (st : LineState) := s st [⟨1, .dropping, some 5⟩, ⟨2, .awaitDrop, some 6⟩, ⟨3, .awaitRelease, none⟩] [⟨4, .held⟩]
    let b := s .active [⟨1, .awaitConfirm, some 5⟩, ⟨2, .awaitClaim, none⟩] [⟨3, .queued⟩, ⟨4, .armed⟩]
    let t (v : State) := after (.guardOpen false) v
    claimLaw (a .active) = true ∧ pocketLaw (a .active) ∧ claimLaw b = true ∧ pocketLaw b ∧
      (t (a .active)).uns = safeClaims true (a .active).uns ∧ (t (a .quiet)).uns = safeClaims false (a .quiet).uns ∧
      (t (a .active)).uns.closing = [⟨1, .awaitConfirm, some 5⟩, ⟨3, .awaitRelease, none⟩, ⟨4, .awaitRelease, none⟩] ∧
      (t (a .active)).alc.queue.map (·.kind) = [.release 3, .release 4, .presence] ∧
      (t (a .active)).alc.queue.map (·.value) = [7, 7, 32775] ∧ (t (a .active)).uns.hold = [part 5] ∧
      (t (a .active)).uns.dropped = 1 ∧ (t (a .active)).uns.confirm = some 50 ∧ (t (a .active)).uns.gate = some 30 ∧
      (t (a .quiet)).uns.closing = [⟨1, .awaitConfirm, some 5⟩] ∧ (t (a .quiet)).alc.queue = [] ∧
      (t b).uns.closing = [⟨1, .awaitConfirm, some 5⟩, ⟨4, .awaitRelease, none⟩] ∧ (t b).uns.active = [] ∧
      (t b).alc.queue.map (·.payload) = [[2, 4], []] ∧
      (t b).mpt.sources[EventSrc.safeEntered.idx].pending = true :=
  ⟨by decide +kernel, by unfold pocketLaw; decide +kernel, by decide +kernel, by unfold pocketLaw; decide +kernel,
    by decide +kernel⟩

/-- R11, R90, R112, R134, R155, R166: SAFE entry by GRIP_SHORT from NORMAL and ALERT, with claims and a round queued, the line taking
requests and in QUIET; and in WAITING with the need inactive. -/
theorem test_grip_short_enters_safe :
    let part (n : Word16) : PartRec := ⟨n, some 1, .sample, 9, some .shuttle, false⟩
    let c := inState .cutting fed
    let s (st : LineState) (d : DispatchState) (pCut : Int) : State := { c with
      fsq := { c.fsq with e := 405150, pCut := some pCut }
      uns := { c.uns with
        hold := [part 5, part 6], gate := some 30, confirm := some 50
        closing := [⟨1, .dropping, some 5⟩, ⟨2, .awaitDrop, some 6⟩], active := [⟨3, .queued⟩, ⟨4, .held⟩] }
      alc := { c.alc with st := st, queue := [⟨.drop 2 .good 6, 7, [], 3, false, true, false⟩, ⟨.dispatch, 300, [], 0, false, false, false⟩] }
      psr := { c.psr with dispatch := d, dispTimer := some 9 }
      sfc := { c.sfc with need := { c.sfc.need with active := d == .queued } } }
    let v := s .active .queued 403670
    let t := after .cutDoneEdge v
    let q := after .cutDoneEdge (s .quiet .waiting 402050)
    claimLaw v = true ∧ pocketLaw v ∧ v.flt.level = .normal ∧ v.cfg.xFace - 405150 < (job.lg : Int) ∧ v.sig.cutLatch = none ∧
      t.inSafe = true ∧ t.flt.safe.bind (·.fromLevel) = some .normal ∧ q.flt.safe.bind (·.fromLevel) = some .alert ∧
      t.uns.closing = [⟨1, .awaitConfirm, some 5⟩, ⟨4, .awaitRelease, none⟩] ∧ t.uns.active = [] ∧ t.uns.hold = [part 5] ∧
      t.alc.queue.map (·.kind) = [.release 4, .presence] ∧ t.alc.unit = clearedUnit v.alc ∧ t.psr.dispatch = .none ∧
      t.psr.dispTimer = none ∧ t.uns.catching.isSome = true ∧ t.fsq.st = .barEnd ∧
      q.uns.closing = [⟨1, .awaitConfirm, some 5⟩] ∧ q.alc.queue = [] ∧ q.psr.dispatch = .waiting ∧ q.psr.dispTimer = some 9 :=
  ⟨by decide +kernel, by unfold pocketLaw; decide +kernel, by decide +kernel⟩

/-- The encoder with a pair. -/
def withPair (a b : Bool) (s : State) : State := { s with sig := { s.sig with phase := some (a, b) } }

theorem test_encoder_applies :
    let d := withMove { forward 122340 with fast := true } (inState .feeding ready)
    let lost : State := { withPair false false d with fsq := { d.fsq with pKnown := false } }
    (after (.encoderEdge true false) lost).fsq.move = some (forward 122340) ∧
      (after (.encoderEdge true false) d).fsq.move = d.fsq.move ∧ (withPair false false ready).sig.phase = some (false, false) ∧ ready.sig.phase = none ∧ (inPhase .straps).running = false ∧
      (after (.encoderEdge true false) (withPair false false ready)).fsq.e = 120861 ∧
      (after (.encoderEdge false true) (withPair false false ready)).fsq.e = 120859 ∧
      (after (.encoderEdge true true) (withPair false false ready)).sig.skips = 1 := by decide +kernel

/-- The watch crossed upward at its position, and a move that reaches its stop point. -/
theorem test_new_position_applies :
    let w : State := { withPair false false ready with fsq := { ready.fsq with watchPos := some 120861, watchArmed := true } }
    let m := withMove (forward 120881) (inState .feeding (withPair false false ready))
    w.running = true ∧ w.posn = some 120860 ∧ w.fsq.watchArmed = true ∧ w.fsq.watchPos = some 120861 ∧
      (after (.encoderEdge true false) w).fsq.watchHit = true ∧ (after (.encoderEdge true false) w).fsq.pauseWatch = true ∧
      m.posn = some 120860 ∧ (after (.encoderEdge true false) m).coasting = true ∧
      (after (.encoderEdge false true) m).coasting = false := by decide +kernel

theorem test_lines_of_the_move_apply :
    let w := withMove { forward 122340 with phase := .waiting } (inState .feeding ready)
    let h := withMove { forward 0 with leg := .offSwitch, target := none } (inState .homing ready)
    let r := withMove { forward 0 with dir := .rev, target := none } (inState .homing ready)
    let waits (st : FeedState) (leg : Leg) := withMove { forward 400000 with leg := leg, phase := .waiting } (inState st ready)
    let open' (s : State) := (after .colletOpenAsserted s).fsq
    let armed : State := { r with sig := { r.sig with zeroArmed := true }, fsq := { r.fsq with still := 0 } }
    w.running = true ∧ w.feedHeld = false ∧ w.posn = some 120860 ∧ (after .colletOpenAsserted w).fsq.drives .fwd = true ∧
      armed.sig.zeroArmed = true ∧ (after (.homeSwEdge true) armed).fsq.e = 0 ∧ (after (.homeSwEdge true) armed).coasting = true ∧
      h.inp .colletOpen = true ∧ (after (.homeSwEdge false) h).fsq.drives .rev = true ∧
      (open' (waits .homing .start)).drives .rev = true ∧ (open' (waits .homing .start)).limit = some 30000 ∧
      (open' (waits .remeasure .main)).drives .fwd = true ∧ (open' (waits .measuring .main)).limit = none ∧
      (open' { waits .barEnd .main with flt := { w.flt with feedPaused := some (.pusherStall, .barEnd) } }).drives .fwd = false ∧
      (after (.homeSwEdge false) h).sig.zeroArmed = true := by decide +kernel

/-- R23, R29, R46, R186: the encoder step at the sample of the home zero crosses the watch: the hit stands, the count is 0 after the
sample and the reverse part has ended at the switch; with no zero armed the edge changes the level alone. -/
theorem test_zero_at_a_watch_hit :
    let r := withMove { forward 0 with dir := .rev, target := none } (inState .homing (withPair false false ready))
    let s (armed : Bool) : State := { r with
      sig := { r.sig with zeroArmed := armed, filters := r.sig.filters.set Input.homeSw.idx ⟨some false, 3⟩ }
      fsq := { r.fsq with e := 0, watchArmed := true, watchPos := some 0, watchFwd := false, limit := some 9 } }
    let v (armed : Bool) := (s armed).sampled (1#21 <<< Input.homeSw.idx.val)
    let hit (armed : Bool) : State := after (.encoderEdge false true) { s armed with
      sig := { (s armed).sig with zeroDue := (s armed).zeroes (v armed) } }
    let t := after (.homeSwEdge true) (hit true)
    (s true).zeroes (v true) = true ∧ (s false).zeroes (v false) = false ∧ (hit true).fsq.watchHit = true ∧
      (hit true).fsq.e = -1 ∧ (hit true).sig.zeroArmed = false ∧ (hit true).sig.zeroDue = true ∧ t.fsq.e = 0 ∧
      t.fsq.watchHit = true ∧ t.fsq.pauseWatch = true ∧ t.coasting = true ∧ t.sig.zeroDue = false ∧
      (after .moveSettled (after (.watchOff []) t)).fsq.st ≠ .homing ∧
      (after (.homeSwEdge true) (hit false)).fsq.e = -1 := by decide +kernel

theorem test_settled_moves_apply :
    let c (st : FeedState) := withMove { forward 122340 with phase := .coasting } (inState st ready)
    let p := withMove (forward 400000) (inState .remeasure ready)
    (∀ st ∈ [FeedState.feeding, .positioning, .barEnd, .homing], (c st).running = true ∧ (c st).feedHeld = false ∧
      (c st).fsq.begun = true ∧ (c st).fsq.retry = false ∧ (c st).sig.cutLatch = none) ∧
      (after .moveSettled (c .feeding)).fsq.feedDone = true ∧ (after .moveSettled (c .positioning)).fsq.pCut = some 120860 ∧
      (after .moveSettled (c .barEnd)).fsq.eject = some 300 ∧ (after .moveSettled (c .homing)).fsq.st = .noBar ∧
      (after .moveSettled (c .homing)).bac.current = none ∧ p.seeksContact = true ∧
      (after .contactFound p).fsq.st = .ready ∧ (after .contactFound p).fsq.firstCut = true ∧
      (after .moveSettled (c .positioning)).fsq.firstCut = true := by decide +kernel

/-- R32, R35: an advance to P_max that settles with no contact and no edge, from NORMAL and with the unload engine paused. -/
theorem test_no_contact_and_no_edge :
    let c (st : FeedState) := withMove { forward 400000 with phase := .coasting } (inState st ready)
    let alert (s : State) : State := { s with flt := { s.flt with level := .alert, unloadPaused := some (.dropUnconfirmed, .trayEmpty) } }
    let r := after .moveSettled (c .remeasure)
    let m := after .moveSettled (alert (c .measuring))
    (∀ st ∈ [FeedState.remeasure, .measuring], (c st).feedHeld = false ∧ (c st).fsq.begun = true ∧ (c st).fsq.retry = false ∧
      (c st).sig.cutLatch = none ∧ (c st).fsq.trip = none ∧ (c st).sig.spindleLatch = none ∧ (alert (c st)).feedHeld = false) ∧
      r.flt.alert = some ⟨.measureFail, .feed, .feed .remeasure, some 0, none, true⟩ ∧ r.fsq.pCut = some 120860 ∧
      r.fsq.st = .remeasure ∧ r.fsq.move = none ∧ m.flt.feedPaused = some (.measureFail, .measuring) ∧ m.flt.further = 1 ∧
      m.flt.furtherSet = 64 ∧ m.fsq.pCut = some 120860 := by decide +kernel

/-- NO_BAR with bars in the rack. -/
def noBar : State := { inState .noBar work with bac := { work.bac with rack := [bar none, bar none] } }

theorem test_loading_applies :
    let wrong : State := { noBar with bac := { noBar.bac with rack := [{ bar none with wrongType := true }] } }
    let l := after .rackLoad noBar
    let m := after (.channelChange true) l
    noBar.running = true ∧ noBar.sig.cutLatch = none ∧ noBar.feedHeld = false ∧ noBar.holdLoading = false ∧
      noBar.inp .channel = false ∧ l.fsq.st = .loading ∧ l.fsq.escape = some 300 ∧
      (after .rackLoad wrong).flt.feedPaused = some (.wrongBar, .noBar) ∧ l.fsq.begun = true ∧ l.fsq.limit.isSome = true ∧
      (work.sig.filters[Input.channel.idx]).acc = none ∧ work.bac.current = none ∧
      (after (.channelChange true) work).bac.current = some ⟨none, .found, none, false, false⟩ ∧
      m.bac.current = some (bar none) ∧ m.bac.rack = [bar none] ∧ m.fsq.st = .measuring ∧ m.fsq.drives .fwd = true ∧
      (after (.spindleEntryEdge true) { m with fsq := { m.fsq with e := 80360, still := 0 } }).fsq.trip = some 80360 := by
  decide +kernel

/-- Section 1.11: the measurement, at its bounds and in band. -/
theorem test_measurement_applies :
    let s : State := { inState .measuring ready with bac := { ready.bac with current := some (bar none) } }
    s.bac.current = some (bar none) ∧ (s.measured 80360).bac.learned[3] = ⟨1198560, 1, 0⟩ ∧
      (s.measured 80360).fsq.st = .positioning ∧ (s.measured 80360).readyPosition = some 120860 ∧
      (s.measured 375001).flt.feedPaused = some (.measureFail, .measuring) ∧
      (let m := withMove { forward 400000 with phase := .coasting, halted := true }
         { s with fsq := { s.fsq with trip := some 80360, still := 0 } }
       m.feedHeld = false ∧ m.fsq.begun = true ∧ m.fsq.retry = false ∧ m.sig.cutLatch = none ∧ m.fsq.st = .measuring ∧
         (after .moveSettled m).fsq.st = .ready) ∧
      (s.measured 375000).flt.last = some (.barLengthOdd, some 0) ∧ (s.measured 375000).fsq.st = .barEnd ∧ (s.measured 118000).flt.last = some (.barLengthOdd, some 0) := by decide +kernel

theorem test_bar_end_applies :
    let b := inState .barEnd ready
    let e : State := { inState .ejecting ready with fsq := { (inState .ejecting ready).fsq with limit := some 2000 } }
    b.feedHeld = false ∧ b.fsq.begun = true ∧ b.fsq.move = none ∧ b.inp .colletOpen = true ∧ b.bac.tray < b.cfg.trayCap ∧
      b.posn = some 120860 ∧ (after .barEndRetract b).fsq.drives .rev = true ∧
      ({ b with bac := { b.bac with tray := 10 } } : State).cfg.trayCap ≤ 10 ∧ e.sig.cutLatch = none ∧ e.fsq.retry = false ∧
      (after .remnantEdge e).bac.tray = 1 ∧ (after .remnantEdge e).fsq.st = .noBar := by decide +kernel

theorem test_before_the_join_applies :
    (inPhase .settling).running = false ∧ (after .indexEdge (inPhase .settling)).sig.indexLatch = true := by decide +kernel

/-! ### Rounds, belt, catch, drop and line -/

/-- A dispatch state, with the en-route record where there is one. -/
def round (d : DispatchState) (s : State) : State :=
  { s with
    psr := { s.psr with dispatch := d }
    bac := { s.bac with enRoute := if d = .enRoute then some (bar none) else none } }

theorem test_rack_entry_applies :
    let r := round .enRoute ready
    let e : State := { r with psr := { r.psr with earlyEdge := some 0 } }
    let d : State := { r with psr := { r.psr with delivery := some (4, 0) } }
    let full : State := { ready with bac := { ready.bac with rack := [bar none, bar none, bar none] } }
    r.running = true ∧ r.psr.dispatch = .enRoute ∧ r.psr.delivery = none ∧ (after .rackEntryEdge r).psr.earlyEdge = some 5000 ∧
      (after .rackEntryEdge e).bac.rack.length = 1 ∧ (after .rackEntryEdge e).psr.earlyEdge = some 0 ∧
      (after .rackEntryEdge d).bac.rack = [bar none] ∧ (after .rackEntryEdge d).bac.enRoute = none ∧
      full.bac.rack.length + 0 = 3 ∧ (after .rackEntryEdge full).flt.last = some (.rackOverfill, none) ∧
      (after .earlyEdgeWindowEnd e).bac.rack.length = 1 ∧ (after .deliveryWindowEnd d).bac.enRoute = none ∧
      r.alc.st ≠ .off ∧ r.alc.waitGap = false ∧ r.own = 7 ∧ (after (.shuttleDelivered 7 15) r).psr.delivery = some (15, 5000) ∧
      (after (.shuttleDelivered 7 1) e).bac.rack.length = 1 ∧ (after (.shuttleDelivered 62 1) r).psr.delivery = none := by
  decide +kernel

/-- The belt in this state, every pocket free. -/
def belt (y : Sync) (s : State) : State := { s with blt := { s.blt with sync := y, map := List.replicate 16 .free } }

theorem test_belt_applies :
    let held (y : Sync) : State := { belt y ready with blt := { (belt y ready).blt with homeHeld := some 0 } }
    let win (y : Sync) (w : AdvWindow) : State := { belt y ready with blt := { (belt y ready).blt with advance := some w } }
    engineRests (belt .unsynced ready) = true ∧ (belt (.synced 15) ready).blt.advance = none ∧
      (after .indexEdge (belt (.synced 15) ready)).blt.sync = .synced 0 ∧
      (after .indexEdge (belt (.filling 14 15) ready)).blt.sync = .synced 15 ∧
      (after .indexEdge (belt (.filling 14 14) ready)).blt.sync = .filling 15 15 ∧
      (after .indexEdge (held (.synced 15))).blt.sync = .synced 0 ∧ (after .indexEdge (held (.synced 3))).blt.sync = .filling 0 0 ∧
      (after .indexEdge (held .unsynced)).blt.sync = .filling 0 0 ∧ (after .homeEdge (held .unsynced)).flt.last =
        some (.beltSyncLost, none) ∧ (after .homeEdge (win (.synced 1) ⟨20, false, false⟩)).blt.sync = .filling 0 0 ∧
      (after .homeEdge (win (.synced 0) ⟨20, true, true⟩)).flt.last = some (.beltSyncLost, none) ∧
      (after .advanceWindowEnd (win (.synced 0) ⟨0, false, true⟩)).blt.misses = 1 ∧
      (after .homeHoldWindowEnd (held .unsynced)).blt.homeHeld = none := by decide +kernel

/-- One claim, on the pocket at this arrival distance after the advance to B = 1, with one part held. -/
def claimed (a : Nat) (st : ClaimStage) (s : State) : State :=
  let s := belt (.synced 0) s
  { s with uns := { s.uns with
    active := [⟨(1 + 5 + a) % 16, st⟩], hold := [⟨5, some 1, .sample, 9, some .shuttle, false⟩] } }

theorem test_unloads_apply :
    let hit (a : Nat) (st : ClaimStage) := after .indexEdge (claimed a st ready)
    let pausedAt (a : Nat) (st : ClaimStage) : State :=
      { claimed a st ready with flt := { ready.flt with unloadPaused := some (.dropUnconfirmed, .trayEmpty) } }
    let sent (b : Bool) : State := let s := claimed 1 .queued ready
      { s with alc := { s.alc with queue := [⟨.claim 7, 0x2607, [7], 0, false, b, false⟩] } }
    let s := claimed 0 .armed ready
    s.running = true ∧ engineRests s = true ∧ s.uns.closing = [] ∧ s.uns.confirm = none ∧ s.blt.advance = none ∧
      s.blt.homeHeld = none ∧ 2 ≤ s.cfg.lmin ∧ s.cfg.lmax < 16 ∧ arrivalOf 16 5 1 6 = 0 ∧ arrivalOf 16 5 1 7 = 1 ∧
      (hit 0 .armed).uns.closing = [⟨6, .dropping, some 5⟩] ∧ (hit 0 .armed).uns.gate = some 100 ∧
      (hit 0 .armed).uns.confirm = some 200 ∧ (hit 0 .held).uns.closing = [⟨6, .awaitRelease, none⟩] ∧
      (hit 0 .held).flt.last = some (.partMissing, some 6) ∧
      (after .indexEdge (pausedAt 0 .armed)).uns.closing = [⟨6, .awaitRelease, none⟩] ∧ s.accepts = true ∧
      (hit 1 .armed).uns.active.map (·.stage) = [.held] ∧
      (after .indexEdge ((claimed 1 .held ready).setLevel .trayBottom true)).uns.active = [⟨7, .armed⟩] ∧
      (after .indexEdge (sent false)).alc.queue.map (·.kind) = [.claim 8] ∧
      (after .indexEdge (sent true)).uns.active = [⟨7, .queued⟩] ∧
      (after .indexEdge (sent true)).alc.queue.map (·.leaving) = [true] := by decide +kernel

/-- The map with an entry for pocket 15. -/
def entry (e : Entry) (s : State) : State := { s with blt := { s.blt with map := s.blt.map.set 15 e } }

theorem test_telegrams_apply :
    let s := belt (.synced 0) ready
    s.running = true ∧ s.alc.st ≠ .off ∧ s.alc.waitGap = false ∧ engineRests s = true ∧ s.own = 7 ∧ s.entryAt 15 = .free ∧
      15 < s.cfg.pockets ∧ s.entryAt 16 = .unknown ∧ (after (.claim 62 15) s).entryAt 15 = .claimed 62 ∧
      (after (.claim 62 15) (entry (.claimed 7) s)).flt.last = some (.claimConflict, some 15) ∧
      (after (.drop 1 15 3 9) (entry (.claimed 7) s)).entryAt 15 = .loaded 1 .unverified 9 ∧
      (after (.drop 1 15 4 9) s).entryAt 15 = .free ∧ (after (.release 1 15) (entry (.claimed 1) s)).entryAt 15 = .free ∧
      (after (.release 1 15) (entry (.claimed 2) s)).entryAt 15 = .claimed 2 ∧
      (let q (st : ClaimStage) (b : Bool) : State := { s with
         uns := { s.uns with active := [⟨15, st⟩] }
         alc := { s.alc with queue := [⟨.claim 15, 0x2607, [15], 0, false, b, false⟩] } }
       (after (.claim 62 15) (q .queued false)).uns.active = [] ∧ (after (.claim 62 15) (q .queued false)).alc.queue = [] ∧
         (after (.claim 62 15) (q .queued true)).uns.active = [⟨15, .queued⟩] ∧
         (after (.claim 62 15) (q .queued true)).alc.queue.map (·.leaving) = [true] ∧
         (after (.drop 1 15 3 9) (entry (.claimed 7) (q .held false))).uns.active = []) ∧
      (after (.goodFrameNoOwner 7 7 []) s).alc.st = .quiet ∧ (after (.claim 7 15) s).blt.sync = .unsynced := by decide +kernel

/-- The catch window open for this outcome. -/
def catching (o : Routed) : State := { ready with uns := { ready.uns with catching := some (⟨o, 1, some .shuttle, 9⟩, 0) } }

theorem test_caught_parts_apply :
    let found := ready.setLevel .trayBottom true
    ready.uns.catching = none ∧ (after .trayEntryEdge (catching .reject)).uns.hold =
        [⟨0, some 1, .unknown, 9, some .shuttle, false⟩] ∧ (after .binEntryEdge (catching .good)).bac.bin = 1 ∧
      (after .catchWindowEnd (catching .good)).flt.last = some (.partMissing, none) ∧ ready.foundDue = false ∧
      found.inp .trayBottom = true ∧ (∀ r ∈ found.uns.hold, r.dropped = true) ∧ found.uns.confirm = none ∧
      found.fsq.st ≠ .feeding ∧ found.fsq.st ≠ .cutting ∧ found.uns.hold.length < 6 ∧
      (after .foundPartRecord found).uns.hold = [⟨0, none, .unknown, 0, none, false⟩] := by decide +kernel

/-- R143 to R145: the nearest FREE pocket from Lmin to Lmax is claimed for a part caught; none where none is free, with the
flag HOLD_CLAIMS, or for a pressed station downstream. -/
theorem test_selection_applies :
    let s := belt (.synced 0) (catching .good)
    let near : State := { s with blt := { s.blt with map := s.blt.map.set 7 (.claimed 9) } }
    let none' : State := { s with blt := { s.blt with map := List.replicate 16 (.claimed 9) } }
    let flag : State := { s with mpt := { s.mpt with flags := 1 } }
    let yields : State := { s with
      uns := { s.uns with yield := 1 }, psr := { s.psr with peers := [⟨3, 0, 4, 16, 6, true, .run, none⟩] } }
    s.running = true ∧ s.fsq.st ≠ .cutting ∧ s.uns.hold = [] ∧ s.uns.closing = [] ∧ s.uns.active = [] ∧ s.alc.queue = [] ∧
      engineRests (s.setLevel .trayEntry true).trayCatch = true ∧
      (after .trayEntryEdge s).uns.active = [⟨7, .queued⟩] ∧ (after .trayEntryEdge s).uns.yield = 2 ∧
      (after .trayEntryEdge s).alc.queue.map (·.kind) = [.claim 7] ∧ (after .trayEntryEdge near).uns.active = [⟨8, .queued⟩] ∧
      (after .trayEntryEdge none').uns.active = [] ∧ (after .trayEntryEdge flag).uns.active = [] ∧
      (after .trayEntryEdge yields).uns.active = [] := by decide +kernel

/-- A drop confirmation running for one held part. -/
def dropping (st : CloseStage) : State :=
  { ready with uns := { ready.uns with
      confirm := some 0, closing := [⟨3, st, some 5⟩], hold := [⟨5, some 1, .sample, 9, some .shuttle, false⟩]
      seq := 6, caught := 1 } }

theorem test_drop_applies :
    let s := dropping .dropping
    let e := dropping .awaitConfirm
    s.running = true ∧ s.uns.confirm.isSome = true ∧ s.uns.closing = [⟨3, .dropping, some 5⟩] ∧
      e.uns.closing = [⟨3, .awaitConfirm, some 5⟩] ∧
      s.uns.hold.find? (·.seq == 5) = some ⟨5, some 1, .sample, 9, some .shuttle, false⟩ ∧ s.accepts = true ∧
      ready.uns.confirm = none ∧ (after .dropSenseEdge s).alc.queue.map (·.kind) = [.drop 3 .sample 5] ∧
      (after .dropConfirmationTimeout s).flt.unloadPaused = some (.dropUnconfirmed, .trayEmpty) ∧
      (after .dropConfirmationTimeout (e.setLevel .trayBottom true)).flt.unloadPaused =
        some (.dropUnconfirmed, .partInTray) := by decide +kernel

/-- A queue entry of this kind, in flight or not. -/
def tx (k : TxKind) (fails : Nat) (inFlight : Bool) : TxEntry :=
  { kind := k, value := 0, payload := [], fails := fails, again := false, inFlight := inFlight, leaving := false }

/-- The line in this state with this queue. -/
def online (st : LineState) (q : List TxEntry) (s : State) : State :=
  { s with alc := { s.alc with st := st, timer := some 0, queue := q } }

theorem test_line_timers_apply :
    let s := online .active [tx (.claim 7) 3 false, tx .presence 2 false] (belt (.synced 15) ready)
    (after .listeningTimerEnd (online .listening [] ready)).alc.st = .active ∧
      (after .withdrawnTimerEnd (online .withdrawn [] ready)).alc.timer = some 2000 ∧ s.alc.st = .active ∧ s.alc.queue ≠ [] ∧
      (∀ e ∈ s.alc.queue, e.inFlight = false) ∧ s.arrival 7 = some 3 ∧ s.entryAt 7 = .free ∧
      (after .transmitStart s).alc.queue.map (·.value) = [0x2607, 0x8007] ∧
      (after .transmitStart s).alc.queue.map (·.inFlight) = [true, false] ∧
      (after .transmitStart s).alc.queue.map (·.fails) = [3, 2] ∧
      (after .transmitStart s).alc.unit = ⟨Frame.bits ⟨0x2607, [7]⟩, 0, .reading [] .plain⟩ ∧
      (let far := online .active [tx (.drop 3 .good 1) 5 false, tx (.release 4) 4 false, tx (.claim 3) 3 false, tx .dispatch 2 false]
         (belt (.synced 15) ready)
       let gone : State := { far with uns := { far.uns with active := [⟨3, .queued⟩] } }
       gone.arrival 3 = some 15 ∧ gone.psr.dispatch ≠ .queued ∧
         (after .transmitStart gone).alc.queue.map (·.fails) = [5, 4] ∧ (after .transmitStart gone).uns.active = []) := by
  decide +kernel

theorem test_attempts_apply :
    let s := online .active [tx .presence 6 true] ready
    let d := online .active [tx .presence 7 true] ready
    let w : State := { d with alc := { d.alc with consecutive := 3 } }
    s.alc.flying = some (tx .presence 6 true) ∧ (after .arbitrationLost s).alc.queue = [tx .presence 6 false] ∧
      (after .attemptFailed s).alc.queue = [tx .presence 7 false] ∧ (after .attemptFailed d).alc.discards = 1 ∧
      (after .attemptFailed d).alc.st = .active ∧ (after .attemptFailed w).alc.st = .withdrawn ∧ ready.alc.queue = [] ∧
      (after (.unreadableFrame 4 .badLength false) ready).alc.unit.tx = List.replicate 8 false ∧
      (after .arbitrationLost s).alc.unit.tx = [] ∧ (after .attemptFailed s).alc.unit = ⟨[], 0, .free false⟩ ∧
      (after (.unreadableFrame 4 .checkMismatch false) { ready with alc := { ready.alc with unit := ⟨[], 0, .passing 4 .plain⟩ } }).alc.unit.tx
        = [true, true, false, false] ∧
      (after (.unreadableFrame 4 .badLength true) ready).alc.doubt = true ∧
      (after (.unreadableFrame 5 .badLength false) ready).alc = ready.alc := by decide +kernel

/-- R87, R89: attempts of a telegram asked for again while in flight, and of one its owner has removed: neither counts for the
entry, the latter for nobody, and its owner is told. -/
theorem test_marked_attempts :
    let again := online .active [{ tx .presence 7 true with again := true }, tx .dispatch 1 false] ready
    let both := online .active [{ tx .presence 7 true with again := true, leaving := true }] ready
    let leaves (k : TxKind) (s : State) := online .active [{ tx k 7 true with leaving := true }, tx .presence 1 false] s
    let round' := leaves .dispatch (round .queued ready)
    let claim := leaves (.claim 7) (claimed 1 .queued { ready with mpt := { ready.mpt with flags := 1 } })
    again.alc.flying.map (·.again) = some true ∧
      (after .arbitrationLost again).alc.queue = [tx .presence 0 false, tx .dispatch 1 false] ∧
      (after .attemptFailed again).alc.queue = [tx .presence 0 false, tx .dispatch 1 false] ∧
      (after .attemptFailed again).alc.failed = again.alc.failed + 1 ∧ (after .attemptFailed both).alc.queue = [tx .presence 0 false] ∧
      (∀ i ∈ [Instr.arbitrationLost, .attemptFailed],
        (after i round').alc.queue = [tx .presence 1 false] ∧ (after i round').psr.dispatch ≠ .queued ∧
        (after i round').alc.failed = round'.alc.failed ∧ (after i round').alc.discards = round'.alc.discards ∧
        (after i claim).uns.active.all (·.pocket != 7) = true) := by decide +kernel

/-- R79, R84, R85, R90, R102, R152: the clear at WITHDRAWN and at an address clash tells every owner: a QUEUED claim and a queued round
end, the record of an awaited DROP leaves as dropped. -/
theorem test_clear_tells_the_owners :
    let s (line : LineState) : State := { round .queued ready with
      uns := { ready.uns with
        hold := [⟨9, some 1, .sample, 9, some .shuttle, false⟩], active := [⟨6, .queued⟩], closing := [⟨2, .awaitDrop, some 9⟩] }
      alc := { ready.alc with
        st := line, consecutive := 3
        queue := [tx (.drop 2 .sample 9) 0 false, tx (.claim 6) 0 false, tx .dispatch 0 false, tx .presence 7 true] } }
    let told (t : State) : Bool := t.uns.active.isEmpty && t.uns.closing.isEmpty && t.uns.hold.isEmpty && t.uns.dropped == 1 &&
      t.psr.dispatch != .queued && t.alc.queue.isEmpty
    (s .active).alc.flying = some (tx .presence 7 true) ∧ told (after .attemptFailed (s .active)) = true ∧
      (after .attemptFailed (s .active)).alc.st = .withdrawn ∧ (after .attemptFailed (s .active)).flt.notices = 2 ∧
      (after .attemptFailed (s .active)).flt.last = some (.lineWithdrawn, none) ∧
      told (after (.release 7 1) (s .listening)) = true ∧ (after (.release 7 1) (s .listening)).flt.notices = 1 := by
  decide +kernel

/-- The claim table with one entry, its telegram in flight. -/
def sending (k : TxKind) (e : Entry) (active : List ActiveClaim) (closing : List ClosingClaim) : State :=
  let s := entry e (belt (.synced 0) (online .active [tx k 0 true] ready))
  { s with uns := { s.uns with active := active, closing := closing, hold := [⟨5, some 1, .sample, 9, some .shuttle, true⟩] } }

theorem test_own_telegrams_apply :
    let c := sending (.claim 15) .free [⟨15, .queued⟩] []
    let d := sending (.drop 15 .sample 5) (.claimed 7) [] [⟨15, .awaitDrop, some 5⟩]
    let r := sending (.release 15) (.claimed 7) [] [⟨15, .awaitRelease, none⟩]
    c.running = true ∧ c.alc.flying = some (tx (.claim 15) 0 true) ∧ c.entryAt 15 = .free ∧ 15 < c.cfg.pockets ∧
      (after .ownClaimCompleted c).uns.active = [⟨15, .held⟩] ∧ d.entryAt 15 = .claimed d.own ∧
      (after .ownDropCompleted d).uns.hold = [] ∧ (after .ownDropCompleted d).entryAt 15 = .loaded 7 .sample 5 ∧
      (after .ownReleaseCompleted r).uns.closing = [] ∧ (after .ownReleaseCompleted r).entryAt 15 = .free ∧
      (online .active [tx .presence 0 true] ready).alc.flying = some (tx .presence 0 true) ∧
      (after .ownDispatchCompleted (online .active [tx .dispatch 0 true] ready)).psr.dispatch = .sent ∧
      ready.alc.flying = none := by decide +kernel

/-- R87, R89, R147, R152: own telegrams complete with several claims in the table; a claim still QUEUED for a loaded pocket ends; a
row whose telegram is not the one in flight does nothing; a completed attempt of a telegram asked for again. -/
theorem test_own_telegrams_among_others :
    let c := sending (.claim 15) .free [⟨14, .held⟩, ⟨15, .queued⟩] [⟨3, .awaitClaim, none⟩]
    let d := sending (.drop 15 .sample 5) (.claimed 7) [⟨15, .queued⟩, ⟨14, .held⟩] [⟨3, .dropping, none⟩, ⟨15, .awaitDrop, some 5⟩]
    let d' : State := { d with alc := { d.alc with queue := d.alc.queue ++ [tx (.claim 15) 0 false] } }
    let r := sending (.release 15) (.claimed 7) [⟨14, .held⟩, ⟨15, .armed⟩] [⟨15, .awaitRelease, none⟩, ⟨3, .dropping, none⟩]
    let again : State := { c with alc := { c.alc with queue := [{ tx .presence 3 true with again := true, leaving := true }] } }
    let without (i : Instr) : Bool := (after i c).uns.active == c.uns.active && (after i c).alc.queue == c.alc.queue
    (after .ownClaimCompleted c).uns.active = [⟨14, .held⟩, ⟨15, .held⟩] ∧
      (after .ownClaimCompleted c).uns.closing = [⟨3, .awaitClaim, none⟩] ∧
      d'.alc.flying = some (tx (.drop 15 .sample 5) 0 true) ∧ (after .ownDropCompleted d').uns.active = [⟨14, .held⟩] ∧
      (after .ownDropCompleted d').uns.closing = [⟨3, .dropping, none⟩] ∧ (after .ownDropCompleted d').alc.queue = [] ∧
      (after .ownDropCompleted d').uns.hold = [] ∧ (after .ownReleaseCompleted r).uns.active = [⟨14, .held⟩] ∧
      (after .ownReleaseCompleted r).uns.closing = [⟨3, .dropping, none⟩] ∧
      [Instr.ownDropCompleted, .ownReleaseCompleted, .ownDispatchCompleted, .ownPresenceCompleted].all without = true ∧
      (after .ownPresenceCompleted again).alc.queue = [tx .presence 0 false] := by decide +kernel

/-- What a belt edge leaves: a latch, another filter, the catch window, the parts counted and binned. -/
theorem test_belt_edges_leave_the_rest :
    let m : State := { belt (.synced 0) ready with
      sig := { ready.sig with dropLatch := true, filters := ready.sig.filters.set 0 { acc := some true, run := 2 } }
      uns := { ready.uns with catching := (catching .sample).uns.catching, caught := 4, binned := 3 } }
    let kept (i : Instr) (input : Input) : Bool :=
      let t := after i m
      t.sig == (m.setLevel input true).sig && t.uns.catching == m.uns.catching && t.uns.caught == 4 && t.uns.binned == 3 &&
        t.flt.level == m.flt.level && t.bac == m.bac
    m.uns.catching.isSome = true ∧ engineRests m = true ∧ kept .indexEdge .index = true ∧ kept .homeEdge .home = true := by decide +kernel

theorem test_rounds_apply :
    let n (d : DispatchState) (s : State) : State := { round d s with psr := { (round d s).psr with dispTimer := some 0, misses := 2 } }
    let full : State := { round .sent ready with bac := { ready.bac with rack := [bar none, bar none, bar none] } }
    ready.running = true ∧ ready.alc.st ≠ .off ∧ ready.alc.waitGap = false ∧ ready.own = 7 ∧ ready.accepts = true ∧
      (after (.shuttleBusy 7 4 70) (n .sent ready)).psr.dispatch = .enRoute ∧
      (after (.shuttleBusy 7 4 70) full).flt.last = some (.rackOverfill, none) ∧
      (after (.shuttleBusy 8 4 70) (n .sent ready)).flt.last = some (.shuttleSilent, none) ∧
      (round .enRoute ready).psr.delivery = none ∧ (after .shuttleIdle (round .enRoute ready)).bac.enRoute = none ∧
      (round .waiting ready).psr.dispatch = .waiting ∧ (after (.dispatch 9 1 1 1) (round .queued ready)).psr.dispatch ≠ .queued ∧
      ready.mpt.job = some job ∧ ((after (.shuttleFault 1 7) ready).learnedOf 4).hold = 60 ∧
      (after (.shuttleFault 2 62) ready).psr.shuttle = .fault .stopped 62 ∧
      (after .dispatchTimerExpiry (n .sent ready)).psr.misses = 3 := by decide +kernel

/-- R101 to R105: BUSY for a station still QUEUED takes its DISPATCH out of the queue at once, and in flight at the end of its
attempt; BUSY for another in SENT is a miss with its notices; SHUTTLE IDLE joins a DISPATCH that is leaving. -/
theorem test_rounds_leave_the_queue :
    let q (b : Bool) (d : DispatchState) : State := online .active [tx .dispatch 2 b, tx .presence 1 false] (round d ready)
    let t (st : Byte) (b : Bool) := after (.shuttleBusy st 4 70) (q b .queued)
    let sent (m : Nat) : State := { round .sent ready with psr := { (round .sent ready).psr with dispTimer := some 9, misses := m } }
    (t 7 false).alc.queue.map (·.kind) = [.presence] ∧ (t 7 false).psr.shuttle = .busy 7 4 70 ∧
      (t 7 false).psr.dispatch = .enRoute ∧ (t 7 true).alc.queue.map (·.leaving) = [true, false] ∧
      (t 8 false).alc.queue.map (·.kind) = [.presence] ∧ (t 8 true).alc.queue.map (·.leaving) = [true, false] ∧
      (t 8 true).psr.misses = 0 ∧ (after (.shuttleBusy 8 4 70) (sent 0)).flt.last = some (.dispatchMiss, none) ∧
      (after (.shuttleBusy 8 4 70) (sent 0)).flt.notices = 1 ∧ (after (.shuttleBusy 8 4 70) (sent 2)).flt.notices = 2 ∧
      (after (.shuttleBusy 8 4 70) (sent 255)).psr.misses = 255 ∧ (after .dispatchTimerExpiry (sent 2)).flt.notices = 2 ∧
      (after (.dispatch 9 1 1 1) (q false .queued)).alc.queue.map (·.kind) = [.presence] := by decide +kernel

/-- The peer table with these records. -/
def withPeers (l : List Peer) : State := { ready with psr := { ready.psr with peers := l } }

/-- 31 records, of addresses 10 to 40. -/
def fullTable : State := withPeers ((List.range 31).map fun i => ⟨10 + i, 0, 1, 16, 0, false, .run, none⟩)

theorem test_peers_apply :
    (after (.presence 9 6 127 128 0x96 13 15 1023) ready).psr.peers = [⟨9, 0, 127, 128, 6, true, .run, some ⟨13, 15, 1023⟩⟩] ∧
      (after (.presence 9 7 127 128 6 0 0 0) ready).psr.peers = [] ∧ fullTable.psr.peers.length = 31 ∧
      (after (.presence 9 6 1 16 0 0 0 0) fullTable).psr.overflow = true ∧
      (after (.peerRecordExpiry 9) (withPeers [⟨9, 4, 1, 16, 0, false, .run, none⟩])).psr.peers = [] ∧
      (after .psrOneSecondTimer (withPeers [⟨8, 2, 1, 16, 0, false, .run, none⟩, ⟨9, 3, 1, 16, 0, false, .run, none⟩])).psr.peers.map
        (·.age) = [3] ∧
      (after (.peerRecordExpiry 9) (withPeers [⟨9, 2, 1, 16, 0, false, .run, none⟩])).psr.peers.length = 1 ∧
      bandOf 7 = 0 ∧ bandOf 8 = 1 ∧ bandOf 32767 = 12 ∧ bandOf 32768 = 13 ∧ forecastState.mpt.job.isSome = true ∧
      up.mpt.job = none ∧
      ready.accepts = true ∧ (ready.learnedOf 15).hold ≤ 1 ∧ 1 < ((after (.shuttleFault 1 7) ready).learnedOf 4).hold := by
  decide +kernel

/-- R130: a new record and an overwritten one of another belt size raise the mark with its notice; a removed one lowers it. -/
theorem test_belt_size_applies :
    let other : State := withPeers [⟨9, 3, 1, 32, 0, false, .run, none⟩]
    let marked : State := { other with blt := { other.blt with mismatch := true } }
    let new := after (.presence 9 6 1 32 0 0 0 0) ready
    let written := after (.presence 9 6 1 17 0 0 0 0) (withPeers [⟨9, 0, 1, 16, 0, false, .run, none⟩])
    ready.blt.mismatch = false ∧ new.blt.mismatch = true ∧ new.flt.last = some (.beltSizeMismatch, none) ∧
      new.mpt.sources[12].pending = true ∧ written.blt.mismatch = true ∧ (after .psrOneSecondTimer marked).blt.mismatch = false ∧
      (∃ r ∈ marked.psr.peers, 3 ≤ r.age) ∧ mayAsk ready ∧ (after .sfcOneSecondTimer ready).alc.queue.map (·.kind) =
        (if ready.sfc.need = ready.needNow then [] else [.presence]) := by
  unfold mayAsk; decide +kernel

/-! ### The data of the reads, and clauses at their bounds -/

/-- The data that the port answers. -/
def answer (i : Instr) (s : State) : List Byte :=
  match (after i s).mpt.buffer with
  | .pending (some r) => r.data
  | _ => []

set_option maxRecDepth 8000 in
/-- Section 12.3: pages byte by byte: FAULT READ with both captures, COUNTS READ, peers with a need and without, pockets within the
belt and beyond it, part records and an empty place. -/
theorem test_read_data :
    let w : State := withMove { forward 122340 with phase := .waiting } (inState .feeding ready)
    let f := after (.guardOpen false) (after .colletLimit { w with fsq := { w.fsq with limit := some 0 } })
    let p := entry (.loaded 9 .sample 0x102) (belt (.synced 0) ready)
    let page (sel idx : Byte) (s : State) := answer (.statusRead [sel, idx]) s
    answer (.faultRead []) f = [3] ++ [2, 1, 9, 255, 255, 1] ++ [12, 3, 9, 255, 255, 1] ++ [2, 0, 0, 0, 2, 9, 0, 0, 0, 255, 255, 0, 0, 0] ∧
      answer (.countsRead []) busy = [0, 10, 0, 10] ++ [0, 0, 0, 4, 0, 0, 0, 1, 0, 0, 0, 0] ++ List.replicate 8 0 ∧
      page 2 1 forecastState = [3, 0, 1, 16, 0x80, 6, 1, 9, 1, 0, 60] ∧
      page 2 4 forecastState = [20, 0, 1, 16, 0, 6, 0, 255, 255, 255, 255] ∧ (page 2 5 forecastState).take 4 = [0, 255, 255, 255] ∧
      page 3 15 p = [15, 4, 9, 2, 1, 2] ∧ page 3 14 p = [14, 2, 255, 0, 255, 255] ∧ page 3 16 p = [16, 1, 255, 0, 255, 255] ∧
      page 4 1 busy = [1, 0, 0, 0, 1, 1, 0, 0, 0, 5, 1, 1] ∧ page 4 3 busy = [3, 0, 2, 255, 255, 3, 0, 0, 0, 7, 0, 0] ∧
      (page 4 4 busy).take 11 = [0, 255, 255, 255, 255, 0, 255, 255, 255, 255, 0] := by decide +kernel

set_option maxRecDepth 8000 in
/-- Section 12.3: the STATION page of section 3.8's station, group by group, and with nothing configured. -/
theorem test_station_page :
    let d := answer (.statusRead [1, 0]) (after .sfcOneSecondTimer forecastState)
    let n := answer (.statusRead [1, 0]) (inPhase .unconfigured)
    d.length = 154 ∧ d.take 8 = [4, 0, 7, 0, 1, 1, 8, 0] ∧ slice d 12 4 = [0, 3, 0x8C, 0xD4] ∧ slice d 16 10 = [0x80, 0, 0, 0, 0, 0x80, 0, 0, 0, 0] ∧
      slice d 26 6 = [1, 4, 255, 255, 255, 1] ∧ slice d 44 5 = [0, 255, 255, 255, 255] ∧
      slice d 56 8 = [0, 2, 0xDB, 0xCC, 0, 116, 5, 200] ∧ slice d 64 6 = [1, 0, 0, 0, 0, 0] ∧
      slice d 70 18 = [1, 0, 7, 48, 1, 244, 2, 0, 7, 208, 36, 74, 1, 214, 11, 11, 1, 0] ∧
      slice d 88 13 = [2, 0, 2, 2, 1, 0, 70, 0, 255, 0, 0, 4, 0] ∧ slice d 101 7 = [3, 1, 0, 0, 1, 255, 255] ∧
      slice d 121 6 = [255, 0, 255, 255, 0, 255] ∧ slice d 150 4 = [4, 4, 4, 4] ∧ n.length = 154 ∧
      n.take 5 = [5, 0, 255, 0, 0] ∧ slice n 8 12 = [0x80, 0, 0, 0, 0x80, 0, 0, 0, 0x80, 0, 0, 0] ∧ slice n 21 4 = [0x80, 0, 0, 0] ∧
      slice n 44 5 = [0, 255, 255, 255, 255] ∧ slice n 65 5 = List.replicate 5 255 := by decide +kernel

/-- R161, R162, R180: the cut faults from ALERT and SAFE, and a second pulse merged with the one that waits. -/
theorem test_cut_faults_at_every_level :
    let late : State := { inState .cutting fed with fsq := { (inState .cutting fed).fsq with e := 405150, pCut := some 402050 } }
    let alert : State := { late with flt := { late.flt with level := .alert } }
    let again : State := { fed with sig := { fed.sig with cutLatch := some (true, false) } }
    let waiting : State := { inState .cutting fed with fsq := { (inState .cutting fed).fsq with still := 0, cutWait := some (true, true) } }
    engineRests again = true ∧ engineRests waiting = true ∧
      (after .cutDoneEdge (again.setLevel .outcomeB true)).sig.cutLatch = some (true, false) ∧
      (after .cutDoneEdge waiting).sig.cutLatch = some (false, false) ∧ (after .cutDoneEdge waiting).mpt.lotCount = 0 ∧
      (after .cutDoneEdge late).flt.furtherSet = 0 ∧ (after .cutDoneEdge late).flt.safe.bind (·.fromLevel) = some .alert ∧
      (after .cutDoneEdge alert).inSafe = true ∧ (after .cutDoneEdge alert).flt.further = 1 ∧
      (after .cutDoneEdge alert).flt.furtherSet = 8 ∧ (after .cutDoneEdge alert).flt.feedPaused = some (.feedDeviation, .cutting) ∧
      (after .cutDoneEdge (safe late)).flt.further = 2 ∧ (after .cutDoneEdge (safe late)).flt.furtherSet = 0x108 ∧
      (after .cutDoneEdge (safe late)).flt.feedPaused = none ∧ (after .cutDoneEdge (safe late)).fsq.st = .barEnd := by decide +kernel

/-- R98, R106, R111, R222: shuttle telegrams with a field out of its range or of an unknown kind, another station's BUSY in EN_ROUTE,
and LANE_EMPTY by dispatch state. -/
theorem test_shuttle_telegrams :
    let s : State := { ready with psr := { ready.psr with shuttle := .idle, shuttleAge := 9 } }
    let view (i : Instr) := ((after i s).psr.shuttle, (after i s).psr.shuttleAge)
    let r := round .enRoute ready
    let early : State := { r with psr := { r.psr with earlyEdge := some 7 } }
    let told : State := { r with psr := { r.psr with delivery := some (4, 7) } }
    let full : State := { early with bac := { early.bac with rack := [bar none, bar none, bar none] } }
    let sent : State := { round .sent ready with psr := { (round .sent ready).psr with dispTimer := some 9 } }
    let idle' : State := { s with mpt := { s.mpt with job := none } }
    let lane := Instr.shuttleFault 1 7
    view (.shuttleBusy 63 4 70) = (.idle, 0) ∧ view (.shuttleBusy 0 4 70) = (.idle, 0) ∧ view (.shuttleBusy 62 16 70) = (.idle, 0) ∧
      view (.shuttleBusy 62 15 70) = (.busy 62 15 70, 0) ∧ view (.shuttleDelivered 7 0) = (.idle, 0) ∧
      view (.shuttleDelivered 7 16) = (.idle, 0) ∧ view (.shuttleFault 3 7) = (.idle, 0) ∧ view (.shuttleFault 1 63) = (.idle, 0) ∧
      view (.shuttleFault 2 0) = (.fault .stopped 0, 0) ∧ view (.goodFrameNoOwner 3 63 [5]) = (.idle, 0) ∧
      view (.goodFrameNoOwner 3 63 [0]) = (.idle, 0) ∧ view (.goodFrameNoOwner 3 63 [4, 1]) = (.idle, 9) ∧
      view (.goodFrameNoOwner 1 63 [9]) = (.idle, 9) ∧ s.own ≠ 63 ∧ (after (.shuttleDelivered 7 16) r).psr.delivery = none ∧
      (after (.shuttleBusy 8 4 70) r).bac.enRoute = none ∧ (after (.shuttleBusy 8 4 70) r).flt.last = some (.deliveryMissing, none) ∧
      (after (.shuttleBusy 8 4 70) r).psr.dispatch ≠ .enRoute ∧ (after (.shuttleBusy 8 4 70) told).psr.dispatch = .enRoute ∧
      (after (.shuttleBusy 8 4 70) early).bac.rack.length = 1 ∧ (after (.shuttleBusy 8 4 70) early).psr.earlyEdge = none ∧
      (after (.shuttleBusy 8 4 70) full).flt.last = some (.rackOverfill, none) ∧ (after .shuttleIdle told).bac.enRoute.isSome = true ∧
      (after lane idle').psr.shuttle = .fault .laneEmpty 7 ∧ (after lane idle').flt.last = none ∧
      (after (.shuttleFault 1 8) s).flt.last = none ∧ (after lane sent).psr.dispTimer = none ∧ (after lane sent).psr.dispatch ≠ .sent ∧
      (after lane sent).flt.last = some (.stockOut, none) ∧ (after lane told).bac.enRoute = none ∧
      (after lane told).psr.delivery = none ∧ (after lane early).bac.rack.length = 1 := by decide +kernel

/-- R115, R120: INDEX with a wrapped window still open counts its miss, the second with a notice, and a paired window none; HOME in
FILLING confirms B = 0 or finds the sync lost, a held one too. -/
theorem test_belt_pairs_home :
    let win (y : Sync) (misses : Nat) (w : AdvWindow) : State :=
      { belt y ready with blt := { (belt y ready).blt with misses := misses, advance := some w } }
    let held (y : Sync) : State := { belt y ready with blt := { (belt y ready).blt with misses := 1, homeHeld := some 5 } }
    let index := after .indexEdge
    let home := after .homeEdge
    let open' : AdvWindow := ⟨3, false, true⟩
    engineRests (win (.synced 0) 1 open') = true ∧ engineRests (held (.synced 0)) = true ∧
      (index (win (.synced 0) 0 open')).blt.misses = 1 ∧ (index (win (.synced 0) 0 open')).flt.last = none ∧
      (index (win (.synced 0) 1 open')).blt.misses = 2 ∧ (index (win (.synced 0) 1 open')).mpt.sources[12].pending = true ∧
      (index (win (.filling 0 3) 1 open')).blt.misses = 2 ∧ (index (win .unsynced 1 open')).blt.misses = 1 ∧
      (index (win (.synced 0) 1 ⟨3, true, true⟩)).blt.misses = 1 ∧ (index (win (.synced 3) 1 ⟨3, false, false⟩)).blt.misses = 1 ∧
      (index (win (.synced 0) 0 open')).blt.sync = .synced 1 ∧ (index (win (.synced 0) 0 open')).blt.advance = some ⟨20, false, false⟩ ∧
      (home (win (.filling 0 3) 1 open')).blt.sync = .filling 0 3 ∧ (home (win (.filling 0 3) 1 open')).blt.misses = 0 ∧
      (home (win (.filling 1 3) 1 ⟨3, false, false⟩)).blt.sync = .filling 0 0 ∧
      (home (win (.filling 1 3) 1 ⟨3, false, false⟩)).flt.last = some (.beltSyncLost, none) ∧
      (index (held (.filling 15 3))).blt.sync = .filling 0 4 ∧ (index (held (.filling 15 15))).blt.sync = .synced 0 ∧
      (index (held (.filling 15 3))).blt.misses = 0 ∧ (index (held (.filling 14 3))).blt.sync = .filling 0 0 ∧
      (index (held (.filling 14 3))).flt.last = some (.beltSyncLost, none) := by decide +kernel

/-- R120 to R122, R150, R160: the notice of a second miss, of a lost sync and of a stray HOME, each one notice more; of an INDEX
that finds a second miss and a claim passed, both; a first miss and a confirmed HOME none. -/
theorem test_belt_notices :
    let v (y : Sync) (w : Option AdvWindow) (held : Option Nat) (misses : Nat) : State :=
      { belt y ready with blt := { (belt y ready).blt with misses := misses, advance := w, homeHeld := held } }
    let open' : AdvWindow := ⟨3, false, true⟩
    let passing : State := { claimed 0 .held ready with blt := { (claimed 0 .held ready).blt with misses := 1, advance := some open' } }
    let said (i : Instr) (s : State) := ((after i s).flt.last, (after i s).flt.notices)
    let lost := (some (FaultKind.beltSyncLost, (none : Option Nat)), (1 : Word16))
    ready.flt.last = none ∧ ready.flt.notices = 0 ∧ (passing.blt.sync.b? = some 0) ∧
      (∀ x ∈ [(Instr.indexEdge, v (.synced 0) (some open') none 1), (.indexEdge, v (.synced 3) none (some 5) 0),
          (.homeEdge, v (.synced 1) (some ⟨3, false, false⟩) none 0), (.homeEdge, v .unsynced none (some 5) 0),
          (.homeEdge, v (.synced 0) (some ⟨3, true, true⟩) none 0), (.advanceWindowEnd, v (.synced 0) (some open') none 1),
          (.homeHoldWindowEnd, v (.synced 0) none (some 0) 0)], said x.1 x.2 = lost) ∧
      (∀ x ∈ [(Instr.indexEdge, v (.synced 0) (some open') none 0), (.homeEdge, v (.synced 0) (some open') none 1),
          (.homeEdge, v .unsynced (some open') none 1), (.advanceWindowEnd, v .unsynced (some open') none 1),
          (.advanceWindowEnd, v (.synced 0) (some open') none 2)], said x.1 x.2 = (none, 0)) ∧
      said .indexEdge passing = (some (.partMissing, some 6), 2) := by decide +kernel

/-- Claims on the pockets at these arrival distances after the advance to B = 1, these parts held. -/
def claims (l : List (Nat × ClaimStage)) (hold : List PartRec) (s : State) : State :=
  let s := belt (.synced 0) s
  { s with uns := { s.uns with active := l.map fun c => ⟨(1 + 5 + c.1) % 16, c.2⟩, hold := hold } }

/-- R146, R149 to R153: two claims at a = 0 and a = 1, each for its own record; a claim refused its RELEASE; a pocket freed at
the tip, with a HELD claim, a QUEUED one and a DROPPING one on it; a confirmation that runs at an advance. -/
theorem test_claims_at_an_advance :
    let part (n : Word16) : PartRec := ⟨n, some 1, .sample, 9, some .shuttle, false⟩
    let tray (s : State) := s.setLevel .trayBottom true
    let index := after .indexEdge
    let two (hold : List PartRec) := claims [(0, .armed), (1, .held)] hold (tray ready)
    let deaf (s : State) : State := { s with alc := { s.alc with st := .quiet } }
    let tip (st : ClaimStage) : State := claims [(11, st)] [part 5] ready
    let fin (tr ok : Bool) : State :=
      let s := belt (.synced 0) { ready with uns := { ready.uns with
        confirm := some 4, closing := [⟨9, .dropping, some 5⟩], hold := [part 5] } }
      (if ok then s else deaf s).setLevel .trayBottom tr
    let s := two [part 5, part 6]
    engineRests s = true ∧ s.blt.advance = none ∧ s.blt.homeHeld = none ∧ s.uns.confirm = none ∧ s.accepts = true ∧
      ((s.uns.active.map fun x => arrivalOf 16 5 1 x.pocket).Pairwise (· < ·)) ∧
      (index s).uns.closing = [⟨6, .dropping, some 5⟩] ∧ (index s).uns.active = [⟨7, .armed⟩] ∧
      (index (two [part 5])).uns.closing = [⟨6, .dropping, some 5⟩] ∧ (index (two [part 5])).uns.active = [⟨7, .held⟩] ∧
      (deaf (claimed 0 .held ready)).accepts = false ∧ (index (deaf (claimed 0 .held ready))).uns.closing = [] ∧
      (index (deaf (claimed 0 .held ready))).uns.active = [] ∧
      (tip .held).entryAt 1 = .free ∧ arrivalOf 16 5 1 1 = 11 ∧ engineRests (entry .free (tip .held)) = true ∧
      (let at1 (e : Entry) (s : State) : State := { s with blt := { s.blt with map := s.blt.map.set 1 e } }
       let drop := at1 (.claimed 7) { claims [] [part 5] ready with uns := { (claims [] [part 5] ready).uns with
         closing := [⟨1, .awaitDrop, some 5⟩] } }
       (at1 (.claimed 7) (tip .held)).entryAt 1 ≠ .free ∧ (at1 (.claimed 7) (tip .held)).uns.active.map (·.pocket) = [1] ∧
       (index (at1 (.claimed 7) (tip .held))).uns.active.all (fun x => x.stage == .queued || x.pocket != 1) = true ∧
       (index (at1 (.claimed 7) (tip .held))).uns.closing = [] ∧
       (index (at1 (.claimed 7) (tip .held))).alc.queue.all (fun e => e.kind != .release 1) = true ∧
       (index drop).uns.closing = [⟨1, .awaitDrop, some 5⟩]) ∧
      engineRests (fin true true) = true ∧ (fin true true).uns.hold.find? (·.seq == 5) = some (part 5) ∧
      (index (fin true true)).uns.closing = [⟨9, .awaitRelease, none⟩] ∧ (index (fin true true)).alc.queue.any (·.kind == .release 9) = true ∧
      (index (fin true true)).flt.unloadPaused = some (.dropUnconfirmed, .partInTray) ∧
      (index (fin true false)).uns.closing = [] ∧ (index (fin true false)).uns.hold = [part 5] ∧
      (index (fin false true)).uns.closing = [⟨9, .awaitDrop, some 5⟩] ∧
      (index (fin false true)).alc.queue.any (·.kind == .drop 9 .unverified 5) = true ∧
      (index (fin false true)).flt.unloadPaused = some (.dropUnconfirmed, .trayEmpty) ∧
      (index (fin false false)).uns.closing = [] ∧ (index (fin false false)).uns.hold = [] ∧
      (index (fin false false)).uns.dropped = 1 := by decide +kernel

/-- R85, R153: a good frame of every telegram with the own address; in QUIET too, without a notice; a rival DROP on the pocket of a
DROPPING claim. -/
theorem test_own_address_and_rival_drop :
    let s := belt (.synced 0) ready
    let quiet : State := { s with alc := { s.alc with st := .quiet } }
    let own : List Instr := [.claim 7 1, .drop 7 1 1 9, .release 7 1, .dispatch 7 1 1 9, .presence 7 6 1 16 0 0 0 0, .goodFrameNoOwner 5 7 []]
    let d : State := { claims [] [⟨5, some 1, .sample, 9, some .shuttle, false⟩] ready with
      uns := { (claims [] [⟨5, some 1, .sample, 9, some .shuttle, false⟩] ready).uns with
        gate := some 30, confirm := some 50, closing := [⟨9, .dropping, some 5⟩] } }
    engineRests d = true ∧ (own.all fun i => (after i s).alc.st == .quiet && (after i s).blt.sync == .unsynced &&
        (after i s).flt.last == some (.addressClash, none) && (after i s).psr.peers == s.psr.peers) = true ∧
      (own.all fun i => (after i quiet).alc.st == .quiet && (after i quiet).flt == quiet.flt) = true ∧
      (after (.drop 1 9 1 77) d).uns.closing = [⟨9, .awaitConfirm, some 5⟩] ∧ (after (.drop 1 9 1 77) d).uns.confirm = some 50 ∧
      (after (.drop 1 9 1 77) d).uns.gate = some 30 ∧ d.entryAt 9 = .free := by decide +kernel

/-- R144: the occasions of a selection, each on a state with a part held and no claim. -/
theorem test_selection_occasions :
    let part : PartRec := ⟨5, some 1, .sample, 9, some .shuttle, false⟩
    let s := claims [] [part] ready
    let full : State := { s with blt := { s.blt with map := List.replicate 16 (.claimed 9) } }
    let flag (b : BitVec 5) : State := { s with mpt := { s.mpt with flags := b } }
    let cut : State := { (belt (.synced 0) fed) with sig := { fed.sig with cutLatch := none } }
    let mine : State := sending (.release 15) (.claimed 7) [] [⟨15, .awaitRelease, none⟩]
    selectionDue s s = false ∧ selectionDue { s with uns := { s.uns with seq := 9 } } s = true ∧
      selectionDue { s with uns := { s.uns with closing := [⟨3, .awaitRelease, none⟩] } } s = true ∧
      selectionDue s (inState .cutting s) = true ∧ selectionDue (inState .cutting s) (inState .cutting s) = false ∧
      selectionDue (flag 1) s = true ∧ selectionDue s (flag 1) = false ∧ selectionDue full s = true ∧ selectionDue s full = false ∧
      (after .feedReqDropped cut).fsq.st = .cutting ∧ (after .feedReqDropped cut).uns.active.map (·.stage) = [.queued] ∧
      (after (.flagsClear [1]) (flag 1)).uns.active.map (·.stage) = [.queued] ∧
      (after (.release 9 7) full).uns.active.map (·.pocket) = [7] ∧
      (after .ownReleaseCompleted mine).uns.active = [⟨7, .queued⟩] := by decide +kernel

/-- R89, R150, R152: outcomes of a drop confirmation where the line takes no request. -/
theorem test_drop_without_a_line :
    let s := dropping .dropping
    let q : State := { s with alc := { s.alc with st := .quiet } }
    let alert : State := { s with flt := { s.flt with level := .alert } }
    q.accepts = false ∧ (after .dropSenseEdge q).uns.closing = [] ∧ (after .dropSenseEdge q).uns.hold = [] ∧
      (after .dropSenseEdge q).uns.dropped = 1 ∧ (after .dropConfirmationTimeout q).uns.dropped = 1 ∧
      (after .dropConfirmationTimeout (q.setLevel .trayBottom true)).uns.closing = [] ∧
      (after .dropConfirmationTimeout (q.setLevel .trayBottom true)).uns.hold = s.uns.hold ∧
      (after .dropConfirmationTimeout alert).flt.further = 1 ∧ (after .dropConfirmationTimeout alert).flt.furtherSet = 0x80 ∧
      (after .dropConfirmationTimeout alert).flt.unloadPaused = some (.dropUnconfirmed, .trayEmpty) ∧
      (after .dropConfirmationTimeout (safe s)).flt.unloadPaused = none ∧ (after .dropConfirmationTimeout (safe s)).flt.further = 1 := by
  decide +kernel

end Sys2Proof.Tests
end

section
/-! SUPPORT. The event commands of the machine port (R208 to R211): what each does once the port has taken it, said over the
bytes of its payload, and that the fold of R209 chooses a best claimable source. -/
namespace Sys2Proof.Machine

open Sys2Proof.Safety

/-! ## A command that is taken, in the words of the statements -/

theorem State.clocked_eq_framed {i : Instr} {code : Byte} {p : List Byte} (s : State) (hb : portBody i = some (code, p)) :
    s.clocked p.length = framed i s := by
  simp only [framed, hb, Option.map_some, Option.getD_some, State.clocked, clockedFor, State.onMpt, Mpt.clocked,
    Nat.add_comm 2, Mpt.misoOf]
  rfl

/-- R199: in RUNNING a free port carries out a command that needs no key and has its length. -/
theorem State.command_framed {i : Instr} {code : Byte} {p : List Byte} {s : State} (act : State → State)
    (hb : portBody i = some (code, p)) (hs : s.running = true) (ht : s.mpt.takes = true)
    (hl : commandLength code = some p.length) (hk : needsKey code = false) : s.command code p act = act (framed i s) := by
  rw [State.command_served s code p act hs ht hl (.inl hk), State.clocked_eq_framed s hb]

theorem running_takes_of_served {i : Instr} {s : State} (h : served i s = true) : s.running = true ∧ s.mpt.takes = true := by
  simp only [served, Bool.and_eq_true] at h
  obtain ⟨⟨⟨hs, ht⟩, -⟩, -⟩ := h
  exact ⟨hs, ht⟩

/-- The field of one byte is that byte of the payload. -/
theorem fieldNat_byte {p : List Byte} {i : Nat} (h : i < p.length) : fieldNat p i 1 = p[i].toNat := by
  rw [fieldNat, slice, List.drop_eq_getElem_cons h]
  simp only [List.take_succ_cons, List.take_zero, beNat, List.foldl_cons, List.foldl_nil, Nat.zero_mul, Nat.zero_add]

/-! ## The sources -/

theorem State.setSource_eq (s : State) (k : Fin 16) (x : Source) :
    s.setSource k x = { s with mpt := { s.mpt with sources := s.mpt.sources.set k x } } := by
  have : s.mpt.sources.setIfInBounds k x = s.mpt.sources.set k x := by
    ext j hj; simp [Vector.getElem_set, Vector.getElem_setIfInBounds]
  simp only [State.setSource, State.onMpt, this]

/-- Section 10.7: the IDs 1 to 16 name the sources. -/
theorem Mpt.source_of_id (m : Mpt) {id : Nat} {k : Fin 16} (h : id = k.val + 1) : m.source id = some m.sources[k] := by
  subst h; simp [Mpt.source]

theorem Mpt.source_of_no_id (m : Mpt) {id : Nat} (h : id = 0 ∨ 16 < id) : m.source id = none := by
  unfold Mpt.source
  split
  · rfl
  · exact Vector.getElem?_eq_none (by omega)

theorem Mpt.claimable_iff (m : Mpt) (k : Fin 16) : m.claimable k = true ↔
    m.sources[k].pending = true ∧ m.sources[k].inService = false ∧ m.threshold < m.sources[k].priority := by
  simp [Mpt.claimable, Source.claimable, and_assoc]

/-! ## The choice of R209 -/

/-- R209: source `k` goes before source `j`, or is it. -/
def Mpt.Precedes (m : Mpt) (k j : Fin 16) : Prop :=
  m.sources[j].priority < m.sources[k].priority ∨ m.sources[j].priority = m.sources[k].priority ∧ k ≤ j

theorem Mpt.Precedes.antisymm {m : Mpt} {k j : Fin 16} (hkj : m.Precedes k j) (hjk : m.Precedes j k) : k = j := by
  unfold Mpt.Precedes at hkj hjk; omega

/-- R209: what is chosen of these sources, if anything, is claimable and precedes every claimable one. -/
def Mpt.Best (m : Mpt) (l : List (Fin 16)) : Option (Fin 16) → Prop
  | none => ∀ i ∈ l, m.claimable i = false
  | some b => b ∈ l ∧ m.claimable b = true ∧ ∀ i ∈ l, m.claimable i = true → m.Precedes b i

theorem Mpt.better_unclaimable {m : Mpt} {i : Fin 16} (o : Option (Fin 16)) (hc : m.claimable i = false) :
    m.better o i = o := by
  simp [Mpt.better, hc]

theorem Mpt.better_none {m : Mpt} {i : Fin 16} (hc : m.claimable i = true) : m.better none i = some i := by
  simp [Mpt.better, hc]

theorem Mpt.better_some {m : Mpt} {i : Fin 16} (b : Fin 16) (hc : m.claimable i = true) :
    m.better (some b) i = if m.sources[b].priority < m.sources[i].priority then some i else some b := by
  simp [Mpt.better, hc]

/-- One more source, of a higher ID than those before, is weighed against the best of them. -/
theorem Mpt.best_better {m : Mpt} {l : List (Fin 16)} {o : Option (Fin 16)} {i : Fin 16} (h : m.Best l o)
    (hi : ∀ j ∈ l, j < i) : m.Best (l ++ [i]) (m.better o i) := by
  cases hc : m.claimable i with
  | false =>
    rw [Mpt.better_unclaimable o hc]
    cases o with
    | none => simpa [Mpt.Best, hc, or_imp, forall_and] using h
    | some b => simpa [Mpt.Best, hc, or_imp, forall_and] using ⟨.inl h.1, h.2⟩
  | true =>
    have self : m.Precedes i i := .inr ⟨rfl, Fin.le_refl i⟩
    cases o with
    | none =>
      have none_before : ∀ j ∈ l, m.claimable j = true → m.Precedes i j := fun j hj hcj => by simp [h j hj] at hcj
      rw [Mpt.better_none hc]
      simpa [Mpt.Best, hc, or_imp, forall_and, self] using none_before
    | some b =>
      obtain ⟨hb, hcb, best⟩ := h
      rw [Mpt.better_some b hc]
      split
      next hp =>
        have raised : ∀ j ∈ l, m.claimable j = true → m.Precedes i j := fun j hj hcj => by
          have := best j hj hcj
          unfold Mpt.Precedes at this ⊢; omega
        simpa [Mpt.Best, hc, or_imp, forall_and, self] using raised
      next hp =>
        have stays : m.Precedes b i := by
          have := hi b hb
          unfold Mpt.Precedes; omega
        simpa [Mpt.Best, hc, or_imp, forall_and, hb, hcb, stays] using best

/-- The fold over the rest of an ascending list, from the best of the sources before. -/
theorem Mpt.best_foldl {m : Mpt} {seen rest : List (Fin 16)} {o : Option (Fin 16)} (h : m.Best seen o)
    (hl : (seen ++ rest).Pairwise (· < ·)) : m.Best (seen ++ rest) (rest.foldl m.better o) := by
  induction rest generalizing seen o with
  | nil => rwa [List.append_nil]
  | cons i rest ih =>
    have above : ∀ j ∈ seen, j < i := fun j hj => (List.pairwise_append.1 hl).2.2 j hj i List.mem_cons_self
    rw [List.append_cons] at hl ⊢
    exact ih (Mpt.best_better h above) hl

theorem Mpt.choice_best (m : Mpt) : m.Best (List.finRange 16) m.choice :=
  Mpt.best_foldl (seen := []) (o := none) (fun _ hi => nomatch hi) (List.pairwise_lt_finRange 16)

/-- R209: a claimable source that precedes every claimable one is the one chosen. -/
theorem Mpt.choice_eq_some {m : Mpt} {k : Fin 16} (hk : m.claimable k = true)
    (first : ∀ j, m.claimable j = true → m.Precedes k j) : m.choice = some k := by
  have best := m.choice_best
  cases hb : m.choice with
  | none => exact absurd hk (Bool.eq_false_iff.1 ((hb ▸ best : m.Best _ none) k (List.mem_finRange k)))
  | some b =>
    obtain ⟨-, hcb, precedes⟩ := hb ▸ best
    rw [(first b hcb).antisymm (precedes k (List.mem_finRange k) hk)]

theorem Mpt.choice_eq_none {m : Mpt} (h : ∀ j, m.claimable j = false) : m.choice = none := by
  have best := m.choice_best
  cases hb : m.choice with
  | none => rfl
  | some b =>
    obtain ⟨-, hcb, -⟩ := hb ▸ best
    simp [h b] at hcb

/-! ## The event commands taken -/

section

variable {s : State} (hs : s.running = true) (ht : s.mpt.takes = true)

include hs ht

theorem exec_eventClaim_taken : exec (.eventClaim []) s =
    .next (answered (framed (.eventClaim []) s).claimEvent.1 .done (byteOf (framed (.eventClaim []) s).claimEvent.2)) :=
  congrArg Host.Outcome.next (State.command_framed _ rfl hs ht rfl rfl)

theorem exec_eventComplete_taken (id : Byte) : exec (.eventComplete [id]) s =
    .next (let f := framed (.eventComplete [id]) s
      match f.mpt.source id.toNat with
      | some x =>
        if x.inService then answered (f.setSource (id.toNat - 1) { x with inService := false }) .done [1] else answered f .done [0]
      | none => answered f .range []) := by
  refine congrArg Host.Outcome.next ((State.command_framed (i := .eventComplete [id]) _ rfl hs ht rfl rfl).trans ?_)
  simp only [fieldNat_byte (p := [id]) (i := 0) (by simp), List.getElem_cons_zero]
  rfl

theorem exec_eventPrioritySet_taken (id v : Byte) : exec (.eventPrioritySet [id, v]) s =
    .next (let f := framed (.eventPrioritySet [id, v]) s
      match f.mpt.source id.toNat with
      | some x => answered (f.setSource (id.toNat - 1) { x with priority := min 7 v.toNat }) .done (byteOf (min 7 v.toNat))
      | none => answered f .range []) := by
  refine congrArg Host.Outcome.next ((State.command_framed (i := .eventPrioritySet [id, v]) _ rfl hs ht rfl rfl).trans ?_)
  simp only [fieldNat_byte (p := [id, v]) (i := 0) (by simp), fieldNat_byte (p := [id, v]) (i := 1) (by simp),
    List.getElem_cons_zero, List.getElem_cons_succ]
  rfl

theorem exec_eventThresholdSet_taken (v : Byte) : exec (.eventThresholdSet [v]) s =
    .next (let f := framed (.eventThresholdSet [v]) s
      answered { f with mpt := { f.mpt with threshold := min 7 v.toNat } } .done (byteOf (min 7 v.toNat))) := by
  refine congrArg Host.Outcome.next ((State.command_framed (i := .eventThresholdSet [v]) _ rfl hs ht rfl rfl).trans ?_)
  simp only [fieldNat_byte (p := [v]) (i := 0) (by simp), List.getElem_cons_zero]
  rfl

end

/-! ## The statements -/

/-- Settles O29: the fold of the model chooses the source that precedes every claimable one, which is unique. -/
theorem eventClaimTakesTheHighestPriority : Obligations.EventClaimTakesTheHighestPriority := by
  intro s i hserved f claimable
  obtain ⟨hs, ht⟩ := running_takes_of_served hserved
  have claimable_iff (k : Fin 16) : f.mpt.claimable k = true ↔ claimable k := f.mpt.claimable_iff k
  constructor
  · intro k hk first
    have chosen : f.mpt.choice = some k :=
      Mpt.choice_eq_some ((claimable_iff k).2 hk) fun j hj => first j ((claimable_iff j).1 hj)
    have claims : f.claimEvent = (f.setSource k { s.mpt.sources[k] with pending := false, inService := true }, k.val + 1) := by
      simp only [State.claimEvent, chosen]
      rfl
    rw [State.setSource_eq] at claims
    exact (exec_eventClaim_taken hs ht).trans (by rw [claims]; rfl)
  · intro hno
    have chosen : f.mpt.choice = none :=
      Mpt.choice_eq_none fun j => Bool.eq_false_iff.2 fun hj => hno j ((claimable_iff j).1 hj)
    have claims : f.claimEvent = (f, 0) := by simp only [State.claimEvent, chosen]
    exact (exec_eventClaim_taken hs ht).trans (by rw [claims]; rfl)

/-- Settles O30, by whether the ID names a source. -/
theorem eventMarksAreWritten : Obligations.EventMarksAreWritten := by
  intro s id v hs ht c p t w
  refine ⟨fun k hk => ?_, fun hno => ?_, exec_eventThresholdSet_taken hs ht v⟩
  · have named (i : Instr) : (framed i s).mpt.source id.toNat = some s.mpt.sources[k] := Mpt.source_of_id _ hk
    have place : id.toNat - 1 = k.val := by omega
    refine ⟨fun hx => ?_, fun hx => ?_, ?_⟩
    · rw [exec_eventComplete_taken hs ht]
      simp only [named, hx, if_true, place, State.setSource_eq]
      rfl
    · rw [exec_eventComplete_taken hs ht]
      simp only [named, hx]
      rfl
    · rw [exec_eventPrioritySet_taken hs ht]
      simp only [named, place, State.setSource_eq]
      rfl
  · have unnamed (i : Instr) : (framed i s).mpt.source id.toNat = none := Mpt.source_of_no_id _ hno
    constructor
    · rw [exec_eventComplete_taken hs ht]
      simp only [unnamed]
      rfl
    · rw [exec_eventPrioritySet_taken hs ht]
      simp only [unnamed]
      rfl

end Sys2Proof.Machine
end
